-- ==== Sys2Proof/Word.lean ====
section
/-! DEFINITION. The word types of the block: levels, directions, bytes, raw counts, host words (R8, R21, R24, R61). -/

namespace Sys2Proof

/-- A host window word, and a command word (R61, R90). -/
abbrev Word := BitVec 32

/-- A word address of the host window; all eight are mapped (R61). -/
abbrev Addr := BitVec 3

/-- A byte on the wire (R65). -/
abbrev Byte := BitVec 8

/-- A raw count (R24). -/
abbrev Raw := BitVec 16

/-- A line level: `false` is 0 (low), `true` is 1 (high) (R8). -/
abbrev Level := Bool

/-- The low level, 0. -/
abbrev Level.low : Level := false

/-- The high level, 1. -/
abbrev Level.high : Level := true

/-- A line direction (R8): `released` is `in` (0), `driven` is `out` (1). -/
inductive Dir where
  | released
  | driven
  deriving DecidableEq, Repr

end Sys2Proof
end

