-- ==== Sys2Proof/Syntax.lean ====
section
/-! DEFINITION. The syntax: the seven host commands (R92), the line events (R10) and the control frames (R33). -/

namespace Sys2Proof

/-- The command selector (R94): TEMP is 0, HUMI is 1. -/
inductive Sel where
  | temp
  | humi
  deriving DecidableEq, Repr

/-- The seven host commands, one constructor per row of spec/opcode_table.json (R92, R93). -/
inductive Instr where
  /-- START, op 0x1 (R163). -/
  | start
  /-- CONNRESET, op 0x2 (R165). -/
  | connreset
  /-- MEAS, op 0x3 (R169): the selector, and whether a hook is supplied. -/
  | meas (sel : Sel) (hook : Bool)
  /-- RDSTAT, op 0x4 (R177). -/
  | rdstat
  /-- WRSTAT, op 0x5 (R179): the status data byte. -/
  | wrstat (value : Byte)
  /-- WRBYTE, op 0x6 (R142): the byte to send. -/
  | wrbyte (value : Byte)
  /-- RDBYTE, op 0x7 (R144): acknowledge the byte or not. -/
  | rdbyte (ack : Bool)
  deriving DecidableEq, Repr

/-- The line micro-operations as they are recorded in the line trace (R10, R120). -/
inductive LineOp where
  | wait (n : Nat)
  | sck (l : Level)
  | sckDir (d : Dir)
  | sda (l : Level)
  | sdaDir (d : Dir)
  | sample (b : Level)
  | yield
  deriving DecidableEq, Repr

/-- A line event: a micro-operation and the tick at which it starts (R10). -/
structure LineEvent where
  tick : Nat
  op : LineOp
  deriving DecidableEq, Repr

/-- Statement labels of PULSE (R127). -/
inductive PulseAt where
  | p1 | p2 | p3
  deriving DecidableEq, Repr

/-- Statement labels of WRBYTE (R141). -/
inductive WrbyteAt where
  | w1 | w2 | w2a | w2b | w2c | w3 | w4 | w5 | w6
  deriving DecidableEq, Repr

/-- Statement labels of RDBYTE (R143). -/
inductive RdbyteAt where
  | b1 | b2 | b2a | b2b | b2c | b3 | b4 | b5 | b6 | b7
  deriving DecidableEq, Repr

/-- Statement labels of START (R162); S2 holds two micro-operations, in this order. -/
inductive StartAt where
  | s1 | s2dir | s2lev | s3 | s4 | s5 | s6 | s7 | s8
  deriving DecidableEq, Repr

/-- Statement labels of CONNRESET (R164); Q1 and Q2 hold two statements each. -/
inductive ConnresetAt where
  | q1dir | q1pulse | q2dir | q2lev | q3 | q3a | q3b | q4
  deriving DecidableEq, Repr

/-- Statement labels of MEAS (R166); M8 holds two statements. -/
inductive MeasAt where
  | m1 | m2 | m3 | m3a | m3b | m3c | m3d | m4 | m5 | m6 | m7 | m8call | m8ret
  deriving DecidableEq, Repr

/-- Statement labels of RDSTAT (R177). -/
inductive RdstatAt where
  | t1 | t2 | t3 | t4
  deriving DecidableEq, Repr

/-- Statement labels of WRSTAT (R179). -/
inductive WrstatAt where
  | v1 | v2 | v3 | v4
  deriving DecidableEq, Repr

/-- Statement labels of the command wrappers X1 to X7 (R163, R165, R169, R177, R179, R142, R144). -/
inductive WrapAt where
  | x1a | x1b | x2a | x2b | x3a | x3b | x4a | x4b | x5a | x5b | x6a | x6b | x7a | x7b
  deriving DecidableEq, Repr

/-- A control frame: a procedure and the label of its next statement (R33). The procedure's working
registers stand once in State, since no procedure is active twice (R34 (g), log 5). -/
inductive Frame where
  | pulse (at_ : PulseAt)
  /-- RELEASE has the one statement L1 (R128). -/
  | release
  | wrbyte (at_ : WrbyteAt)
  | rdbyte (at_ : RdbyteAt)
  | start (at_ : StartAt)
  | connreset (at_ : ConnresetAt)
  | meas (at_ : MeasAt)
  | rdstat (at_ : RdstatAt)
  | wrstat (at_ : WrstatAt)
  | wrapper (at_ : WrapAt)
  deriving DecidableEq, Repr

/-- The procedures of the microprogram (R33). -/
inductive Proc where
  | pulse | release | wrbyte | rdbyte | start | connreset | meas | rdstat | wrstat | wrapper
  deriving DecidableEq, Repr

/-- The four error classes, CAUSE 0 to 3 (R220). -/
inductive Cause where
  | none
  | noAck
  | pollTimeout
  | checksumMismatch
  deriving DecidableEq, Repr

/-- The result of the procedure MEAS (R166). -/
inductive MeasResult where
  | success (raw : Raw)
  | failure (cause : Cause)
  deriving DecidableEq, Repr

/-- What a host can do at the ports of the block (R40, R41, R62, R63). -/
inductive HostAct where
  /-- `MemRead(addr, 4)` (R62). -/
  | read (addr : Addr)
  /-- `MemWrite(addr, 4, v)` (R63); word 0 offers a command (R26). -/
  | write (addr : Addr) (v : Word)
  /-- HOOKRET: `yield_ack` is 1 for one sample (R40, R104). -/
  | hookReturn
  /-- `yield_ack` is driven to this level from now on (R40, R254 (3)). -/
  | driveAck (level : Bool)
  /-- `rst` is driven to this level from now on (R41, R250). -/
  | driveRst (level : Bool)
  deriving DecidableEq, Repr

/-- Who moves next (log 2). -/
inductive Move where
  /-- The block's own move: one statement of the sequencer, or one tick of time. -/
  | run
  /-- One host action (R72). -/
  | host (a : HostAct)
  /-- WAITIDLE of the script notation (R104). -/
  | waitIdle
  /-- The host watches `yield_req` until it is 1, as HOOKRET of the script notation asks (R104, R229). -/
  | waitYield
  deriving DecidableEq, Repr

end Sys2Proof
end

