-- ==== Sys2Proof/Config.lean ====
section
/-! DEFINITION. The parameters of R6, and the values the spec leaves open as opaque constants: nothing can be proved of
what an opaque constant is; of T_TICK the bounds of R6 hold by its form. -/

namespace Sys2Proof.Config

/-- SETUP_TICKS (R6): ticks waited before the clock write of PULSE. -/
def setupTicks : Nat := 2

/-- HOLD_TICKS (R6): ticks waited after the clock write of PULSE. -/
def holdTicks : Nat := 5

/-- BYTE_BITS (R6). -/
def byteBits : Nat := 8

/-- RESET_PULSES (R6): clock pulses of CONNRESET with data held high. -/
def resetPulses : Nat := 9

/-- POLL_MAX (R6): the most poll iterations of one MEAS. -/
def pollMax : Nat := 250

/-- CODE_TEMP (R6, R101). -/
def codeTemp : Byte := 0xE3

/-- CODE_HUMI (R6, R101). -/
def codeHumi : Byte := 0xE5

/-- CRC_POLY (R6, R181), from general knowledge (93_implementation_defined.md G1). Log 17, PRESUMED. -/
def crcPoly : Byte := 0x31

/-- The initial value of the checksum (R6, R181). Log 17, PRESUMED. -/
def crcInit : Byte := 0x00

/-- The denominator of the fixed-point format (R200). -/
def fixedScale : Int := 409600

/-- POLL_WAIT_TICKS, OPEN (R6): ticks of the default wait after an unsuccessful poll. Log 11. -/
opaque pollWaitTicks : Nat

/-- STATUS_RD_CODE, OPEN (R6, R101). Log 11. -/
opaque statusRdCode : Byte

/-- STATUS_WR_CODE, OPEN (R6, R101). Log 11. -/
opaque statusWrCode : Byte

/-- The duration in milliseconds that a pair of natural numbers stands for: each is positive and less than
1/5, and each rational number in that range is one of them (R6, D2). -/
def tickOfPair (p : Nat × Nat) : ℚ := (p.1 + 1) / (5 * ((p.1 + 1) + (p.2 + 1)))

/-- The pair that T_TICK comes from: a free value (R6). Log 11. -/
opaque tickPair : Nat × Nat

/-- T_TICK, OPEN (R6, D2): the physical duration of one tick, in milliseconds. It is positive, 5 * T_TICK is
less than 1 ms, and nothing else is known of it. Log 11. -/
def tickDuration : ℚ := tickOfPair tickPair

/-- The device oracle (R23): the answer to the sample number `draw`, given the line trace so far,
once the listed answers of the state are used up. A free value of the two. The trace begins at the last fall of
`rst`, so that the answer depends on what went over the line before that reset only through the number of samples
answered: DESIGN CHOICE, log 3. -/
opaque deviceAnswer : (draw : Nat) → (trace : List LineEvent) → Level

/-- The clock line's level while the block does not drive it (R22, U6): a free value of the tick and the
trace. The line is undriven only under reset and at tick 0 with an empty trace, so that this is one and the same
unknown level at every undriven instant of every reset: DESIGN CHOICE, log 13. -/
opaque undrivenClock : (tick : Nat) → (trace : List LineEvent) → Level

/-- The data line's level while block and device drive it against each other (R22, U5): a free value of the
tick and the trace. Two instants with the same tick and the same trace, in two runs from reset, have the same
unknown level: DESIGN CHOICE, log 13. -/
opaque contention : (tick : Nat) → (trace : List LineEvent) → Level

end Sys2Proof.Config
end

