-- ==== Sys2Proof/Machine/State.lean ====
section
/-! DEFINITION. The state of the block as plain data (R20), its reset value (R39), and the reasons a step can stop. -/

namespace Sys2Proof.Machine

/-- The four line output signals (R21). -/
structure Lines where
  /-- `sck_o`: the clock output latch -/
  sckO : Level
  /-- `sck_oe`: the clock output enable -/
  sckOe : Dir
  /-- `sda_o`: the data output latch; it keeps its value while the line is released (R36) -/
  sdaO : Level
  /-- `sda_oe`: the data output enable -/
  sdaOe : Dir
  deriving DecidableEq, Repr

/-- The fields of STAT (R27). Bits [31:8] are reserved and read 0. -/
structure Stat where
  /-- [0] BUSY -/
  busy : Bool
  /-- [1] ERR -/
  err : Bool
  /-- [3:2] CAUSE -/
  cause : Cause
  /-- [4] TVALID -/
  tvalid : Bool
  /-- [5] HVALID -/
  hvalid : Bool
  /-- [6] ILL -/
  ill : Bool
  /-- [7] YIELD, and the output `yield_req` (R40) -/
  yieldReq : Bool
  deriving DecidableEq, Repr

/-- The working registers of the sequencer (R32), each under the spec's name, and the result register
`res` of wrapper X3 (R169). `i`, `k`, `n`, `wcnt` are natural numbers, as R32 allows. -/
structure Work where
  op : BitVec 4
  arg : Byte
  v : Byte
  r : Byte
  a : Level
  e : Level
  e1 : Level
  e2 : Level
  i : Nat
  k : Nat
  n : Nat
  s : Level
  hi : Byte
  lo : Byte
  ck : Byte
  cause : Cause
  l : Level
  res : MeasResult
  wcnt : Nat
  deriving DecidableEq, Repr

/-- The input pins, at the level last driven on them (R40, R41). -/
structure Pins where
  rst : Bool
  yieldAck : Bool
  deriving DecidableEq, Repr

/-- The MODEL's own fields: the coming moves of the agents and what they have seen. None is a
register of the block (log 2, log 3). -/
structure World where
  /-- the coming moves; when it is empty only the block and time move -/
  agenda : List Move
  /-- the device's coming answers to SAMPLE; past its end the oracle `Config.deviceAnswer` answers -/
  answers : List Level
  /-- how many samples were ever answered; a reset of the block does not reset the device -/
  draws : Nat
  /-- the values the host's reads returned, newest first (R264) -/
  readLog : List (Addr × Word)
  deriving DecidableEq, Repr

/-- The state of the machine: the block's state (R20), time and line trace (R10, R262), the input
pins, and the model's own fields. -/
structure State where
  /-- the line output signals (R21) -/
  line : Lines
  /-- TEMP = x[0] (R24) -/
  temp : Raw
  /-- HUMI = x[1] (R24) -/
  humi : Raw
  /-- CMD (R26) -/
  cmd : Word
  /-- STAT (R27) -/
  stat : Stat
  /-- CFG.CRC_EN (R29) -/
  crcEn : Bool
  /-- RDATA[7:0] (R30) -/
  rdata : Byte
  /-- the working registers (R32) -/
  work : Work
  /-- the control frame stack, top first (R33) -/
  ctl : List Frame
  /-- the tick count since `rst` fell (R262) -/
  ticks : Nat
  /-- the line trace since tick 0, NEWEST EVENT FIRST (R10, R264) -/
  trace : List LineEvent
  /-- the input pins (R40, R41) -/
  pins : Pins
  /-- the model's own fields -/
  world : World
  deriving DecidableEq, Repr

/-- Why the machine can stop with a fault. -/
inductive Fault where
  /-- A procedure returns, or a delay ends, at a statement that calls nothing and waits for nothing: a
  control stack that R33 and R34 (g) exclude. Raised by the sequencer's own moves only. No state
  reached from reset raises it. Safe: the model stops where the spec describes no behaviour (log 14). -/
  | brokenStack
  deriving DecidableEq, Repr

/-- Why an instruction can be refused. -/
inductive Refusal where
  /-- The instruction of this mnemonic has no meaning in the model. No arm of `exec` answers with it:
  every row of the opcode table is modelled. Safe: the model stops. -/
  | notModelled (mnemonic : String)
  deriving DecidableEq, Repr

/-- One outcome of a move of this machine. -/
abbrev Result := Host.Outcome State Fault Refusal

/-- The lines at reset: both undriven (R21, R39). -/
def Lines.reset : Lines := ⟨.low, .released, .low, .released⟩

/-- STAT at reset: BUSY and nothing else (R28). -/
def Stat.reset : Stat := ⟨true, false, .none, false, false, false, false⟩

/-- The working registers at reset: `op` = 0x2, `arg` = 0x00, `wcnt` = 0 (R39); the others, which R39
leaves unspecified, at the values of log 6 (DESIGN CHOICE). -/
def Work.reset : Work :=
  { op := 0x2, arg := 0x00, v := 0, r := 0, a := .low, e := .low, e1 := .low, e2 := .low, i := 0,
    k := 0, n := 0, s := .low, hi := 0, lo := 0, ck := 0, cause := .none, l := .low,
    res := .failure .none, wcnt := 0 }

/-- Every piece of the block's state at its value of R39, the time and the trace at tick 0; the pins
and the model's own fields as they are. -/
def State.resetBlock (s : State) : State :=
  { line := .reset, temp := 0, humi := 0, cmd := 0x00000200, stat := .reset, crcEn := false,
    rdata := 0, work := .reset, ctl := [.wrapper .x2a], ticks := 0, trace := [], pins := s.pins,
    world := s.world }

/-- The machine at the instant `rst` falls (R39): wrapper X2 at its first statement, BUSY = 1. The
model's own fields are empty and `yield_ack` is 0 (log 2, log 3, log 10). -/
def State.reset : State :=
  { line := .reset, temp := 0, humi := 0, cmd := 0x00000200, stat := .reset, crcEn := false,
    rdata := 0, work := .reset, ctl := [.wrapper .x2a], ticks := 0, trace := [],
    pins := ⟨false, false⟩, world := ⟨[], [], 0, []⟩ }

end Sys2Proof.Machine
end

