-- ==== Sys2Proof/Machine/Converter.lean ====
section
/-! DEFINITION. The unit converter (R200 to R208): exact signed fixed point with denominator 409600. -/

namespace Sys2Proof.Machine

/-- CVT_T (R201): the temperature, in units of 1/409600 degree Celsius. -/
def cvtT (raw : Raw) : Int := 4393 * (raw.toNat : Int) - 19189760

/-- `lin` of R203: the relative humidity before the clamp, in units of 1/409600 percent. -/
def linRh (raw : Raw) : Int := 12500 * (raw.toNat : Int) - 2457600

/-- The clamp of R203: above 99 becomes 100, below 0.1 becomes 0.1, both comparisons strict. -/
def clampRh (lin : Int) : Int :=
  if 40550400 < lin then 40960000 else if lin < 40960 then 40960 else lin

/-- CVT_RH (R203): the clamped relative humidity. -/
def cvtRh (raw : Raw) : Int := clampRh (linRh raw)

/-- TEMP_FX as the host reads it (R31, R206). -/
def tempFx (raw : Raw) : Word := BitVec.ofInt 32 (cvtT raw)

/-- HUMI_FX as the host reads it (R31, R206). -/
def humiFx (raw : Raw) : Word := BitVec.ofInt 32 (cvtRh raw)

end Sys2Proof.Machine
end

