-- ==== Sys2Proof/Machine/Flags.lean ====
section
/-! DEFINITION. The STAT word and its codes (R27, R220), and the checksum the sequencer compares with (R174, R181). -/

namespace Sys2Proof.Machine

/-- The CAUSE code of an error class (R220). -/
def causeCode : Cause → BitVec 2
  | .none => 0
  | .noAck => 1
  | .pollTimeout => 2
  | .checksumMismatch => 3

/-- STAT as the host reads it (R27): bits [31:8] are 0. -/
def Stat.word (f : Stat) : Word :=
  (0 : BitVec 24) ++ BitVec.ofBool f.yieldReq ++ BitVec.ofBool f.ill ++ BitVec.ofBool f.hvalid ++
    BitVec.ofBool f.tvalid ++ causeCode f.cause ++ BitVec.ofBool f.err ++ BitVec.ofBool f.busy

/-- The error class a completed byte write reports: NoAck when the sampled acknowledge is 1 (R220,
R221). -/
def ackCause (e : Level) : Cause := if e then .noAck else .none

/-- One of the eight shifts of R181: shift left, and subtract the polynomial when a 1 falls out. -/
def crcShift (c : Byte) : Byte :=
  if c.getLsbD 7 then (c <<< 1) ^^^ Config.crcPoly else c <<< 1

/-- `m` shifts of R181. -/
def crcShifts : Nat → Byte → Byte
  | 0, c => c
  | m + 1, c => crcShifts m (crcShift c)

/-- One byte of R181: exclusive-or, then eight shifts. -/
def crcByte (c b : Byte) : Byte := crcShifts 8 (c ^^^ b)

/-- CRC8(hi, lo) (R181): `hi` first, then `lo`, from 0x00. -/
def crc8 (hi lo : Byte) : Byte := crcByte (crcByte Config.crcInit hi) lo

/-- EXPECT(hi, lo) (R174): 0x00 with CRC_EN = 0, the checksum of R181 with CRC_EN = 1. -/
def expected (crcEn : Bool) (hi lo : Byte) : Byte := if crcEn then crc8 hi lo else 0x00

end Sys2Proof.Machine
end

