-- ==== Sys2Proof/WellFormed.lean ====
section
/-! DEFINITION. When a command word is legal (R90, R91, R93), as a check on its three fields. -/

namespace Sys2Proof

/-- The three fields of a command word (R90). -/
structure CommandFields where
  /-- bits [31:12] -/
  zero : BitVec 20
  /-- bits [11:8] -/
  op : BitVec 4
  /-- bits [7:0] -/
  arg : Byte
  deriving DecidableEq, Repr

/-- Bits [31:12] must be 0 (R90). -/
def CommandFields.zeroOk (f : CommandFields) : Bool := f.zero == 0

/-- The opcode is one of the seven of R92; 0x0 and 0x8 to 0xF are reserved (R95). -/
def CommandFields.opOk (f : CommandFields) : Bool := 1 ≤ f.op.toNat && f.op.toNat ≤ 7

/-- Every operand bit that R93 marks "must be 0" for the opcode is 0. -/
def CommandFields.argOk (f : CommandFields) : Bool :=
  match f.op.toNat with
  | 1 | 2 | 4 => f.arg == 0
  | 3 => f.arg.toNat < 4
  | 7 => f.arg.toNat < 2
  | _ => true

/-- The legality of R91: all three checks hold. -/
def CommandFields.legal (f : CommandFields) : Bool := f.zeroOk && f.opOk && f.argOk

/-- The fields a command has under R92 and R93. -/
def Instr.fields : Instr → CommandFields
  | .start => ⟨0, 0x1, 0⟩
  | .connreset => ⟨0, 0x2, 0⟩
  | .meas sel hook => ⟨0, 0x3, (if hook then 2 else 0) + (match sel with | .temp => 0 | .humi => 1)⟩
  | .rdstat => ⟨0, 0x4, 0⟩
  | .wrstat value => ⟨0, 0x5, value⟩
  | .wrbyte value => ⟨0, 0x6, value⟩
  | .rdbyte ack => ⟨0, 0x7, if ack then 1 else 0⟩

/-- A command is well formed when its fields are legal (R91). The operand types of Instr admit
exactly the values of R93, so every command is well formed; the checks reject command fields that
stand for no command. -/
def Instr.wellFormed (i : Instr) : Bool := i.fields.legal

end Sys2Proof
end

