-- ==== Sys2Proof/Decode.lean ====
section
/-! DEFINITION. The decoder of command words, total (R91), and the encoder, from the tables of R90 to R94. -/

namespace Sys2Proof

/-- Why a word is illegal (R91, R95). -/
inductive IllegalWord where
  /-- one of bits [31:12] is set -/
  | highBits
  /-- opcode 0x0 or 0x8 to 0xF -/
  | reservedOpcode
  /-- an operand bit that must be 0 is set -/
  | operandBits
  deriving DecidableEq, Repr

/-- What a word is: exactly one command, or illegal (R91). -/
inductive Decoded where
  | command (i : Instr)
  | illegal (why : IllegalWord)
  deriving DecidableEq, Repr

/-- The fields of a word (R90). -/
def fieldsOf (w : Word) : CommandFields :=
  ⟨w.extractLsb' 12 20, w.extractLsb' 8 4, w.extractLsb' 0 8⟩

/-- The word with these fields (R90). -/
def wordOf (f : CommandFields) : Word := f.zero ++ f.op ++ f.arg

/-- The selector a bit stands for (R94). -/
def selOfBit (b : Bool) : Sel := if b then .humi else .temp

/-- The bit a selector stands for (R94). -/
def bitOfSel : Sel → Bool
  | .temp => false
  | .humi => true

/-- A command without operand: the operand byte must be 0 (R93). -/
def withoutOperand (arg : Byte) (i : Instr) : Decoded :=
  if arg = 0 then .command i else .illegal .operandBits

/-- The opcode map and the operand decode of R92 and R93, on the opcode and the operand byte. -/
def decodeFields (op : BitVec 4) (arg : Byte) : Decoded :=
  match op.toNat with
  | 1 => withoutOperand arg .start
  | 2 => withoutOperand arg .connreset
  | 3 =>
    if arg.extractLsb' 2 6 = 0 then .command (.meas (selOfBit (arg.getLsbD 0)) (arg.getLsbD 1))
    else .illegal .operandBits
  | 4 => withoutOperand arg .rdstat
  | 5 => .command (.wrstat arg)
  | 6 => .command (.wrbyte arg)
  | 7 =>
    if arg.extractLsb' 1 7 = 0 then .command (.rdbyte (arg.getLsbD 0)) else .illegal .operandBits
  | _ => .illegal .reservedOpcode

/-- The decoder (R91): every 32-bit word is one command or illegal. -/
def decode (w : Word) : Decoded :=
  if (fieldsOf w).zero = 0 then decodeFields (fieldsOf w).op (fieldsOf w).arg
  else .illegal .highBits

/-- The opcode of a command (R92). -/
def opcodeOf : Instr → BitVec 4
  | .start => 0x1
  | .connreset => 0x2
  | .meas _ _ => 0x3
  | .rdstat => 0x4
  | .wrstat _ => 0x5
  | .wrbyte _ => 0x6
  | .rdbyte _ => 0x7

/-- The operand byte of a command (R93): of MEAS, `h` is bit 1 and `sel` bit 0. -/
def operandByteOf : Instr → Byte
  | .start => 0
  | .connreset => 0
  | .meas sel hook => (0 : BitVec 6) ++ BitVec.ofBool hook ++ BitVec.ofBool (bitOfSel sel)
  | .rdstat => 0
  | .wrstat value => value
  | .wrbyte value => value
  | .rdbyte ack => (0 : BitVec 7) ++ BitVec.ofBool ack

/-- The encoder: the one command word of a command (R90, R92, R93). -/
def encode (i : Instr) : Word := wordOf ⟨0, opcodeOf i, operandByteOf i⟩

/-- One row of the opcode map of R92. -/
structure OpcodeRow where
  mnemonic : String
  matchBits : Word
  mask : Word
  deriving DecidableEq, Repr

/-- The opcode map of R92, row by row. -/
def opcodeMap : List OpcodeRow :=
  [⟨"START", 0x00000100, 0xFFFFFFFF⟩, ⟨"CONNRESET", 0x00000200, 0xFFFFFFFF⟩,
   ⟨"MEAS", 0x00000300, 0xFFFFFFFC⟩, ⟨"RDSTAT", 0x00000400, 0xFFFFFFFF⟩,
   ⟨"WRSTAT", 0x00000500, 0xFFFFFF00⟩, ⟨"WRBYTE", 0x00000600, 0xFFFFFF00⟩,
   ⟨"RDBYTE", 0x00000700, 0xFFFFFFFE⟩]

/-- A word selects a row when its masked bits are the row's (R92). -/
def OpcodeRow.selects (row : OpcodeRow) (w : Word) : Bool := w &&& row.mask == row.matchBits

/-- The mnemonic of a command (R92). -/
def mnemonicOf : Instr → String
  | .start => "START"
  | .connreset => "CONNRESET"
  | .meas _ _ => "MEAS"
  | .rdstat => "RDSTAT"
  | .wrstat _ => "WRSTAT"
  | .wrbyte _ => "WRBYTE"
  | .rdbyte _ => "RDBYTE"

/-- The word whose bits below `nbits` are those of `w` and whose other bits are 0: the one word of an
instruction of the table. `none` where the bits do not fit one word (R90: there is no second word). -/
def tableWord (nbits w : Nat) : Option Word :=
  if w % 2 ^ nbits < 2 ^ 32 then some (BitVec.ofNat 32 (w % 2 ^ nbits)) else none

/-- The command the decoder reads from a table row's bits. -/
def decodeTableWord (nbits w : Nat) : Option Instr :=
  match tableWord nbits w with
  | none => none
  | some word =>
    match decode word with
    | .command i => some i
    | .illegal _ => none

end Sys2Proof
end

