-- ==== Sys2Proof/Machine/Operands.lean ====
section
/-! DEFINITION. The operand forms of the commands and of the frames (R93, R94, R102). -/

namespace Sys2Proof.Machine

/-- The selector operand of MEAS, arg[0] (R93, R94). -/
def selOperand (arg : Byte) : Sel := selOfBit (arg.getLsbD 0)

/-- The hook operand of MEAS, arg[1] (R93). -/
def hookOperand (arg : Byte) : Bool := arg.getLsbD 1

/-- The acknowledge operand of RDBYTE, arg[0] (R93). -/
def ackOperand (arg : Byte) : Level := arg.getLsbD 0

/-- The wire command byte of a selector (R94, R101). -/
def code : Sel → Byte
  | .temp => Config.codeTemp
  | .humi => Config.codeHumi

/-- Bit `i` of a byte as a line level: the bit a write frame drives in its slot (R96, R141 W2a). -/
def bitLevel (v : Byte) (i : Nat) : Level := v.getLsbD i

/-- The shift form of byte assembly, `(r << 1)[7:0] | s` (R102, R143 B2b). -/
def shiftIn (r : Byte) (b : Level) : Byte := (r <<< 1) ||| (BitVec.ofBool b).setWidth 8

/-- The 16-bit raw value `hi:lo` (R66, R102). -/
def rawOf (hi lo : Byte) : Raw := hi ++ lo

/-- The eight levels of a byte in slot order, bit 7 first (R65, R96, R97). -/
def levelsOf (v : Byte) : List Level :=
  [v.getLsbD 7, v.getLsbD 6, v.getLsbD 5, v.getLsbD 4, v.getLsbD 3, v.getLsbD 2, v.getLsbD 1,
   v.getLsbD 0]

end Sys2Proof.Machine
end

