-- ==== Sys2Proof/Machine/Ops.lean ====
section
/-! DEFINITION. The named operations on the state: line micro-operations (R120 to R126), command acceptance, rejection and
completion (R160, R161, R228), the host window (R61 to R63), and the control stack (R33, R34). -/

namespace Sys2Proof.Machine

/-! ### Line micro-operations -/

/-- One tick passes (R121, R262). -/
def State.tick (s : State) : State := { s with ticks := s.ticks + 1 }

/-- A line event at the present tick (R10). -/
def State.record (op : LineOp) (s : State) : State := { s with trace := ⟨s.ticks, op⟩ :: s.trace }

/-- `SCK <- l` (R122). -/
def State.sck (l : Level) (s : State) : State :=
  { s.record (.sck l) with line := { s.line with sckO := l } }

/-- `SCKDIR <- d` (R123). -/
def State.sckDir (d : Dir) (s : State) : State :=
  { s.record (.sckDir d) with line := { s.line with sckOe := d } }

/-- `SDA <- l` (R124). -/
def State.sda (l : Level) (s : State) : State :=
  { s.record (.sda l) with line := { s.line with sdaO := l } }

/-- `SDADIR <- d` (R125); `sda_o` keeps its value (R36). -/
def State.sdaDir (d : Dir) (s : State) : State :=
  { s.record (.sdaDir d) with line := { s.line with sdaOe := d } }

/-- The level a `SAMPLE()` reads now (R23, R126): the device's next listed answer, or the oracle's
answer to the number of samples and the trace so far when none is listed. The trace begins at the last fall of
`rst`: where no answer is listed, two runs that differ only in the traffic before a reset (R253), with as many
samples answered, get equal answers after it. That is the model's choice (log 3, DESIGN CHOICE). -/
def State.answer (s : State) : Level :=
  match s.world.answers with
  | b :: _ => b
  | [] => Config.deviceAnswer s.world.draws s.trace

/-- The state after a `SAMPLE()`: the event is recorded with its answer, and the answer is used up. No
state of the block changes (R126). -/
def State.sampled (s : State) : State :=
  { s.record (.sample s.answer) with
    world := { s.world with answers := s.world.answers.tail, draws := s.world.draws + 1 } }

/-! ### The control stack -/

/-- The top frame's label becomes `f`, above the frames `rest`: `pc <- f` (R33). -/
def State.goto (f : Frame) (rest : List Frame) (s : State) : State := { s with ctl := f :: rest }

/-- `CALL PULSE(l)`: the callee's first label is pushed (R34 (c), R127). -/
def State.callPulse (l : Level) (s : State) : State :=
  { s with work := { s.work with l := l }, ctl := .pulse .p1 :: s.ctl }

/-- `CALL RELEASE` (R34 (c), R128). -/
def State.callRelease (s : State) : State := { s with ctl := .release :: s.ctl }

/-- `CALL WRBYTE(v)` (R34 (c), R141). -/
def State.callWrbyte (v : Byte) (s : State) : State :=
  { s with work := { s.work with v := v }, ctl := .wrbyte .w1 :: s.ctl }

/-- `CALL RDBYTE(a)` (R34 (c), R143). -/
def State.callRdbyte (a : Level) (s : State) : State :=
  { s with work := { s.work with a := a }, ctl := .rdbyte .b1 :: s.ctl }

/-- The call of a procedure without operands, at its first label (R34 (c)). -/
def State.callProc (f : Frame) (s : State) : State := { s with ctl := f :: s.ctl }

/-! ### Acceptance, rejection, completion -/

/-- Command acceptance, one atomic step (R160): CMD, `op` and `arg` take the word, BUSY is set, ILL is
cleared, and the stack is the command's wrapper at its first statement. -/
def State.accept (i : Instr) (wrapper : WrapAt) (s : State) : State :=
  { s with
    cmd := encode i
    work := { s.work with op := (fieldsOf (encode i)).op, arg := (fieldsOf (encode i)).arg }
    stat := { s.stat with busy := true, ill := false }
    ctl := [.wrapper wrapper] }

/-- A rejected CMD write (R228): ILL is set and nothing else changes. While `rst` is 1 the write is
lost and every piece of state keeps its reset value (R250). -/
def State.reject (s : State) : State :=
  if s.pins.rst then s else { s with stat := { s.stat with ill := true } }

/-- A legal command word offered at CMD (R26, R160, R228): accepted when BUSY = 0, else rejected. -/
def State.offer (i : Instr) (wrapper : WrapAt) (s : State) : State :=
  if s.pins.rst || s.stat.busy then s.reject else s.accept i wrapper

/-- Completion `done(err, cause)` (R161): ERR and CAUSE take the result, BUSY is cleared, the stack is
empty. It is the return from a command (R227) and, with `err` = 1, the error completion of R224. -/
def State.done (err : Bool) (cause : Cause) (s : State) : State :=
  { s with stat := { s.stat with busy := false, err := err, cause := cause }, ctl := [] }

/-- The completion of a byte write: `if e = 1 then done(1, 1) else done(0, 0)` (R142, R177, R179). -/
def State.doneAck (e : Level) (s : State) : State := s.done e (ackCause e)

/-- The write of a successful measurement: `x[sel] <- raw` and VALID[sel] <- 1 (R169, R175). -/
def State.commitRaw (sel : Sel) (raw : Raw) (s : State) : State :=
  match sel with
  | .temp => { s with temp := raw, stat := { s.stat with tvalid := true } }
  | .humi => { s with humi := raw, stat := { s.stat with hvalid := true } }

/-- RDATA takes a byte read (R30, R144, R177). -/
def State.setRdata (b : Byte) (s : State) : State := { s with rdata := b }

/-! ### The host window -/

/-- What a host read of a window word returns (R61, R62). -/
def State.readWord (s : State) (addr : Addr) : Word :=
  match addr.toNat with
  | 0 => s.cmd
  | 1 => s.stat.word
  | 2 => (BitVec.ofBool s.crcEn).setWidth 32
  | 3 => s.rdata.setWidth 32
  | 4 => s.temp.setWidth 32
  | 5 => s.humi.setWidth 32
  | 6 => tempFx s.temp
  | _ => humiFx s.humi

/-- `MemRead(addr, 4)` (R62): the host gets the word; no state of the block changes. -/
def State.hostRead (addr : Addr) (s : State) : State :=
  { s with world := { s.world with readLog := (addr, s.readWord addr) :: s.world.readLog } }

/-- `MemWrite(addr, 4, v)` to a word other than CMD (R63): CRC_EN when BUSY = 0, nothing elsewhere.
While `rst` is 1 nothing changes (R250). -/
def State.hostWrite (addr : Addr) (v : Word) (s : State) : State :=
  if addr.toNat = 2 ∧ s.stat.busy = false ∧ s.pins.rst = false then { s with crcEn := v.getLsbD 0 }
  else s

/-- `rst` driven to 1 (R250): every piece of the block's state takes its reset value. -/
def State.assertRst (s : State) : State := { s.resetBlock with pins := { s.pins with rst := true } }

/-- `rst` driven to 0 (R250, R251): the state is the one reset holds; tick 0 is this instant. -/
def State.releaseRst (s : State) : State := { s with pins := { s.pins with rst := false } }

/-- `yield_ack` driven to a level (R40). -/
def State.driveAck (level : Bool) (s : State) : State :=
  { s with pins := { s.pins with yieldAck := level } }

end Sys2Proof.Machine
end

