-- ==== Sys2Proof/Machine/Control.lean ====
section
/-! DEFINITION. How the control stack advances (R34): returns into the caller's statement, the two delays WAIT (R121) and
YIELD (R168), and the counted loops. -/

namespace Sys2Proof.Machine

/-- The next state, with `f` as the top frame's label above `rest`. -/
def goOn (f : Frame) (rest : List Frame) (s : State) : Result := .next (s.goto f rest)

/-- The end of one body of the loop W2, `for i = 7 downto 0` (R34 (d), R141). -/
def loopW2 (rest : List Frame) (s : State) : Result :=
  if 0 < s.work.i then
    goOn (.wrbyte .w2a) rest { s with work := { s.work with i := s.work.i - 1 } }
  else goOn (.wrbyte .w3) rest s

/-- The end of one body of the loop B2, `for i = 7 downto 0` (R34 (d), R143). -/
def loopB2 (rest : List Frame) (s : State) : Result :=
  if 0 < s.work.i then
    goOn (.rdbyte .b2a) rest { s with work := { s.work with i := s.work.i - 1 } }
  else goOn (.rdbyte .b3) rest s

/-- The end of one body of the loop Q3, `for k = 1..9` (R34 (d), R164). -/
def loopQ3 (rest : List Frame) (s : State) : Result :=
  if s.work.k < Config.resetPulses then
    goOn (.connreset .q3a) rest { s with work := { s.work with k := s.work.k + 1 } }
  else goOn (.connreset .q4) rest s

/-- The end of one body of the loop M3, `for n = 1..250` (R34 (d), R166): the next poll, or M3d when
the loop is exhausted. -/
def loopM3 (rest : List Frame) (s : State) : Result :=
  if s.work.n < Config.pollMax then
    goOn (.meas .m3a) rest { s with work := { s.work with n := s.work.n + 1 } }
  else goOn (.meas .m3d) rest s

/-- A procedure's last statement has finished and its frame is popped (R34 (c)): the result is stored
in the caller's register and the caller's label moves on. Where that was the caller's last statement
too, the caller's frame is popped as well. -/
def finish (s : State) : List Frame → Result
  -- WRBYTE (R141)
  | .wrbyte .w2b :: rest => goOn (.wrbyte .w2c) rest s
  | .wrbyte .w2c :: rest => loopW2 rest s
  | .wrbyte .w3 :: rest => goOn (.wrbyte .w4) rest s
  | .wrbyte .w4 :: rest => goOn (.wrbyte .w5) rest s
  | .wrbyte .w6 :: rest => finish s rest
  -- RDBYTE (R143)
  | .rdbyte .b2a :: rest => goOn (.rdbyte .b2b) rest s
  | .rdbyte .b2c :: rest => loopB2 rest s
  | .rdbyte .b5 :: rest => goOn (.rdbyte .b6) rest s
  | .rdbyte .b6 :: rest => goOn (.rdbyte .b7) rest s
  | .rdbyte .b7 :: rest => finish s rest
  -- START (R162)
  | .start .s1 :: rest => goOn (.start .s2dir) rest s
  | .start .s3 :: rest => goOn (.start .s4) rest s
  | .start .s5 :: rest => goOn (.start .s6) rest s
  | .start .s6 :: rest => goOn (.start .s7) rest s
  | .start .s7 :: rest => goOn (.start .s8) rest s
  | .start .s8 :: rest => finish s rest
  -- CONNRESET (R164)
  | .connreset .q1pulse :: rest => goOn (.connreset .q2dir) rest s
  | .connreset .q3a :: rest => goOn (.connreset .q3b) rest s
  | .connreset .q3b :: rest => loopQ3 rest s
  | .connreset .q4 :: rest => finish s rest
  -- MEAS (R166); the result of the write frame M2 is discarded (R170)
  | .meas .m1 :: rest => goOn (.meas .m2) rest s
  | .meas .m2 :: rest => goOn (.meas .m3) rest s
  | .meas .m4 :: rest => goOn (.meas .m5) rest { s with work := { s.work with hi := s.work.r } }
  | .meas .m5 :: rest => goOn (.meas .m6) rest { s with work := { s.work with lo := s.work.r } }
  | .meas .m6 :: rest => goOn (.meas .m7) rest { s with work := { s.work with ck := s.work.r } }
  | .meas .m8call :: rest => goOn (.meas .m8ret) rest s
  -- RDSTAT (R177) and WRSTAT (R179)
  | .rdstat .t1 :: rest => goOn (.rdstat .t2) rest s
  | .rdstat .t2 :: rest => goOn (.rdstat .t3) rest { s with work := { s.work with e1 := s.work.e } }
  | .rdstat .t3 :: rest => goOn (.rdstat .t4) rest s
  | .wrstat .v1 :: rest => goOn (.wrstat .v2) rest s
  | .wrstat .v2 :: rest => goOn (.wrstat .v3) rest { s with work := { s.work with e1 := s.work.e } }
  | .wrstat .v3 :: rest => goOn (.wrstat .v4) rest { s with work := { s.work with e2 := s.work.e } }
  -- the wrappers' first statements
  | .wrapper .x1a :: rest => goOn (.wrapper .x1b) rest s
  | .wrapper .x2a :: rest => goOn (.wrapper .x2b) rest s
  | .wrapper .x3a :: rest => goOn (.wrapper .x3b) rest s
  | .wrapper .x4a :: rest => goOn (.wrapper .x4b) rest s
  | .wrapper .x5a :: rest => goOn (.wrapper .x5b) rest s
  | .wrapper .x6a :: rest => goOn (.wrapper .x6b) rest s
  | .wrapper .x7a :: rest => goOn (.wrapper .x7b) rest s
  | _ => .fault .brokenStack

/-- The label of a finished delay moves on: a WAIT of PULSE (R127) or the delay of a poll (R168). -/
def leaveDelay (s : State) : Result :=
  match s.ctl with
  | .pulse .p1 :: rest => goOn (.pulse .p2) rest s
  | .pulse .p3 :: rest => finish s rest
  | .meas .m3c :: rest => loopM3 rest s
  | _ => .fault .brokenStack

/-- `WAIT n` (R34 (b), R121): the event is recorded and `wcnt` loaded; `WAIT 0` moves on at once. -/
def startWait (n : Nat) (s : State) : Result :=
  let t := { s.record (.wait n) with work := { s.work with wcnt := n } }
  if n = 0 then leaveDelay t else .next t

/-- One tick of a running WAIT (R34 (b), R121): `wcnt` is decremented, and when it reaches 0 the label
moves on. -/
def waitTick (s : State) : Result :=
  let t := { s.tick with work := { s.work with wcnt := s.work.wcnt - 1 } }
  if t.work.wcnt = 0 then leaveDelay t else .next t

/-- `YIELD(h)` (R168): the default wait with h = 0, the hook handshake with h = 1. -/
def startYield (hook : Bool) (s : State) : Result :=
  if hook then .next { s.record .yield with stat := { s.stat with yieldReq := true } }
  else startWait Config.pollWaitTicks s

/-- The hook return ends a pending yield (R40, R168 (3)): STAT.YIELD is cleared and the sequencer goes
on with the next statement at that instant. -/
def endYield (s : State) : Result := leaveDelay { s with stat := { s.stat with yieldReq := false } }

end Sys2Proof.Machine
end

