-- ==== Sys2Proof/Machine/ByteFraming.lean ====
section
/-! DEFINITION. Byte Framing: the statements of WRBYTE (R141) and RDBYTE (R143), the wrappers X6 and X7, and the commands
WRBYTE (R142) and RDBYTE (R144). -/

namespace Sys2Proof.Machine

/-- WRBYTE(v) -> e (R141). -/
def stmtWrbyte (w : WrbyteAt) (rest : List Frame) (s : State) : Result :=
  match w with
  | .w1 => goOn (.wrbyte .w2) rest (s.sdaDir .driven)
  | .w2 => goOn (.wrbyte .w2a) rest { s with work := { s.work with i := Config.byteBits - 1 } }
  | .w2a => goOn (.wrbyte .w2b) rest (s.sda (bitLevel s.work.v s.work.i))
  | .w2b => .next (s.callPulse .high)
  | .w2c => .next (s.callPulse .low)
  | .w3 => .next s.callRelease
  | .w4 => .next (s.callPulse .high)
  | .w5 => goOn (.wrbyte .w6) rest { s.sampled with work := { s.work with e := s.answer } }
  | .w6 => .next (s.callPulse .low)

/-- RDBYTE(a) -> r (R143). -/
def stmtRdbyte (b : RdbyteAt) (rest : List Frame) (s : State) : Result :=
  match b with
  | .b1 => goOn (.rdbyte .b2) rest { s with work := { s.work with r := 0x00 } }
  | .b2 => goOn (.rdbyte .b2a) rest { s with work := { s.work with i := Config.byteBits - 1 } }
  | .b2a => .next (s.callPulse .high)
  | .b2b =>
    goOn (.rdbyte .b2c) rest { s.sampled with work := { s.work with r := shiftIn s.work.r s.answer } }
  | .b2c => .next (s.callPulse .low)
  | .b3 => goOn (.rdbyte .b4) rest (s.sdaDir .driven)
  | .b4 => goOn (.rdbyte .b5) rest (s.sda (!s.work.a))
  | .b5 => .next (s.callPulse .high)
  | .b6 => .next (s.callPulse .low)
  | .b7 => .next s.callRelease

/-- X6b: the completion of the command WRBYTE (R142). -/
def completeWrbyte (s : State) : State := s.doneAck s.work.e

/-- X7b: the completion of the command RDBYTE (R144): RDATA <- r; done(0, 0), one atomic step. -/
def completeRdbyte (s : State) : State := (s.setRdata s.work.r).done false .none

/-- WRBYTE #value, op 0x6 (R142): the command is offered (R160, R228); accepted, it runs wrapper X6. -/
def execWrbyte (value : Byte) (s : State) : Result := .next (s.offer (.wrbyte value) .x6a)

/-- RDBYTE ACK|NACK, op 0x7 (R144): the command is offered (R160, R228); accepted, it runs wrapper
X7. -/
def execRdbyte (ack : Bool) (s : State) : Result := .next (s.offer (.rdbyte ack) .x7a)

end Sys2Proof.Machine
end

