-- ==== Sys2Proof/Machine/LineControl.lean ====
section
/-! DEFINITION. Line Control: the statements of PULSE (R127) and RELEASE (R128), and the levels an observer of the lines sees
(R22). -/

namespace Sys2Proof.Machine

/-- PULSE(l) (R127). -/
def stmtPulse (p : PulseAt) (rest : List Frame) (s : State) : Result :=
  match p with
  | .p1 => startWait Config.setupTicks s
  | .p2 => goOn (.pulse .p3) rest (s.sck s.work.l)
  | .p3 => startWait Config.holdTicks s

/-- RELEASE (R128): its one statement L1. -/
def stmtRelease (rest : List Frame) (s : State) : Result := finish (s.sdaDir .released) rest

/-- The clock line's level (R22): `sck_o` while driven; not defined by the block while undriven (U6). That
the undriven level is one and the same unknown level at every undriven instant of every reset is the model's
choice (log 13, DESIGN CHOICE). -/
def State.clockLevel (s : State) : Level :=
  match s.line.sckOe with
  | .driven => s.line.sckO
  | .released => Config.undrivenClock s.ticks s.trace

/-- The data line's level when the device drives `device` (`none`: it does not) (R22): high by the
pull-up when nobody drives, unspecified when both drive opposite levels (U5). That the contended level is
the same at two instants with the same tick and trace is the model's choice (log 13, DESIGN CHOICE). -/
def State.dataLevel (s : State) (device : Option Level) : Level :=
  match s.line.sdaOe, device with
  | .released, none => .high
  | .released, some l => l
  | .driven, none => s.line.sdaO
  | .driven, some l => if l = s.line.sdaO then l else Config.contention s.ticks s.trace

/-- The physical time since `rst` fell (R6, R262), in milliseconds. -/
def State.elapsed (s : State) : ℚ := s.ticks * Config.tickDuration

end Sys2Proof.Machine
end

