-- ==== Sys2Proof/Machine/Transaction.lean ====
section
/-! DEFINITION. The Transaction Sequencer: the statements of START (R162), CONNRESET (R164), MEAS (R166), RDSTAT (R177) and
WRSTAT (R179), their wrappers' completions, and the five commands. -/

namespace Sys2Proof.Machine

/-- START (R162). -/
def stmtStart (c : StartAt) (rest : List Frame) (s : State) : Result :=
  match c with
  | .s1 => .next (s.callPulse .low)
  | .s2dir => goOn (.start .s2lev) rest (s.sdaDir .driven)
  | .s2lev => goOn (.start .s3) rest (s.sda .high)
  | .s3 => .next (s.callPulse .high)
  | .s4 => goOn (.start .s5) rest (s.sda .low)
  | .s5 => .next (s.callPulse .low)
  | .s6 => .next (s.callPulse .high)
  | .s7 => .next s.callRelease
  | .s8 => .next (s.callPulse .low)

/-- CONNRESET (R164). -/
def stmtConnreset (c : ConnresetAt) (rest : List Frame) (s : State) : Result :=
  match c with
  | .q1dir => goOn (.connreset .q1pulse) rest (s.sckDir .driven)
  | .q1pulse => .next (s.callPulse .low)
  | .q2dir => goOn (.connreset .q2lev) rest (s.sdaDir .driven)
  | .q2lev => goOn (.connreset .q3) rest (s.sda .high)
  | .q3 => goOn (.connreset .q3a) rest { s with work := { s.work with k := 1 } }
  | .q3a => .next (s.callPulse .high)
  | .q3b => .next (s.callPulse .low)
  | .q4 => .next (s.callProc (.start .s1))

/-- MEAS(sel, h) (R166); `sel` and `h` are the latched operand bits (R169). -/
def stmtMeas (c : MeasAt) (rest : List Frame) (s : State) : Result :=
  match c with
  | .m1 => .next (s.callProc (.start .s1))
  | .m2 => .next (s.callWrbyte (code (selOperand s.work.arg)))
  | .m3 => goOn (.meas .m3a) rest { s with work := { s.work with n := 1 } }
  | .m3a => goOn (.meas .m3b) rest { s.sampled with work := { s.work with s := s.answer } }
  | .m3b => if s.work.s = .low then goOn (.meas .m4) rest s else goOn (.meas .m3c) rest s
  | .m3c => startYield (hookOperand s.work.arg) s
  | .m3d => goOn (.meas .m8call) rest { s with work := { s.work with cause := .pollTimeout } }
  | .m4 => .next (s.callRdbyte .high)
  | .m5 => .next (s.callRdbyte .high)
  | .m6 => .next (s.callRdbyte .low)
  | .m7 =>
    if s.work.ck = expected s.crcEn s.work.hi s.work.lo then
      finish { s with work := { s.work with res := .success (rawOf s.work.hi s.work.lo) } } rest
    else goOn (.meas .m8call) rest { s with work := { s.work with cause := .checksumMismatch } }
  | .m8call => .next (s.callProc (.connreset .q1dir))
  | .m8ret => finish { s with work := { s.work with res := .failure s.work.cause } } rest

/-- RDSTAT -> (r, e1) (R177). -/
def stmtRdstat (c : RdstatAt) (rest : List Frame) (s : State) : Result :=
  match c with
  | .t1 => .next (s.callProc (.start .s1))
  | .t2 => .next (s.callWrbyte Config.statusRdCode)
  | .t3 => .next (s.callRdbyte .low)
  | .t4 => finish s rest

/-- WRSTAT(value) -> e (R179); `value` is the latched operand byte. -/
def stmtWrstat (c : WrstatAt) (rest : List Frame) (s : State) : Result :=
  match c with
  | .v1 => .next (s.callProc (.start .s1))
  | .v2 => .next (s.callWrbyte Config.statusWrCode)
  | .v3 => .next (s.callWrbyte s.work.arg)
  | .v4 => finish { s with work := { s.work with e := s.work.e1 || s.work.e2 } } rest

/-- X1b: the completion of START (R163). -/
def completeStart (s : State) : State := s.done false .none

/-- X2b: the completion of CONNRESET (R165). -/
def completeConnreset (s : State) : State := s.done false .none

/-- X3b: the completion of MEAS (R169): on success `x[sel]` and VALID[sel] with done(0, 0), one atomic
step; on failure done(1, cause). -/
def completeMeas (s : State) : State :=
  match s.work.res with
  | .success raw => (s.commitRaw (selOperand s.work.arg) raw).done false .none
  | .failure c => s.done true c

/-- X4b: the completion of RDSTAT (R177): RDATA <- r whether or not e1 = 1. -/
def completeRdstat (s : State) : State := (s.setRdata s.work.r).doneAck s.work.e1

/-- X5b: the completion of WRSTAT (R179). -/
def completeWrstat (s : State) : State := s.doneAck s.work.e

/-- START, op 0x1 (R163): the command is offered (R160, R228); accepted, it runs wrapper X1. -/
def execStart (s : State) : Result := .next (s.offer .start .x1a)

/-- CONNRESET, op 0x2 (R165): the command is offered (R160, R228); accepted, it runs wrapper X2. -/
def execConnreset (s : State) : Result := .next (s.offer .connreset .x2a)

/-- MEAS TEMP|HUMI [, HOOK], op 0x3 (R169): the command is offered (R160, R228); accepted, it runs
wrapper X3. -/
def execMeas (sel : Sel) (hook : Bool) (s : State) : Result := .next (s.offer (.meas sel hook) .x3a)

/-- RDSTAT, op 0x4 (R177): the command is offered (R160, R228); accepted, it runs wrapper X4. -/
def execRdstat (s : State) : Result := .next (s.offer .rdstat .x4a)

/-- WRSTAT #value, op 0x5 (R179): the command is offered (R160, R228); accepted, it runs wrapper X5. -/
def execWrstat (value : Byte) (s : State) : Result := .next (s.offer (.wrstat value) .x5a)

end Sys2Proof.Machine
end

