-- ==== Sys2Proof/Machine/Sequencer.lean ====
section
/-! DEFINITION. The sequencer: the statement at the top label (R33, R34), and the block's own move. -/

namespace Sys2Proof.Machine

/-- The statements of the wrappers X1 to X7: the call of the command's procedure, then its completion
(R163, R165, R169, R177, R179, R142, R144). -/
def stmtWrapper (x : WrapAt) (s : State) : State :=
  match x with
  | .x1a => s.callProc (.start .s1)
  | .x1b => completeStart s
  | .x2a => s.callProc (.connreset .q1dir)
  | .x2b => completeConnreset s
  | .x3a => s.callProc (.meas .m1)
  | .x3b => completeMeas s
  | .x4a => s.callProc (.rdstat .t1)
  | .x4b => completeRdstat s
  | .x5a => s.callProc (.wrstat .v1)
  | .x5b => completeWrstat s
  | .x6a => s.callWrbyte s.work.arg
  | .x6b => completeWrbyte s
  | .x7a => s.callRdbyte (ackOperand s.work.arg)
  | .x7b => completeRdbyte s

/-- The statement at the label of the top frame `f`, above `rest` (R33, R34). -/
def statement (f : Frame) (rest : List Frame) (s : State) : Result :=
  match f with
  | .pulse p => stmtPulse p rest s
  | .release => stmtRelease rest s
  | .wrbyte w => stmtWrbyte w rest s
  | .rdbyte b => stmtRdbyte b rest s
  | .start c => stmtStart c rest s
  | .connreset c => stmtConnreset c rest s
  | .meas c => stmtMeas c rest s
  | .rdstat c => stmtRdstat c rest s
  | .wrstat c => stmtWrstat c rest s
  | .wrapper x => .next (stmtWrapper x s)

/-- The block's own move. While `rst` is 1 nothing changes (R250). A pending yield ends if `yield_ack`
is seen 1, else a tick passes (R40, R168). A running WAIT takes a tick (R121). Else the statement at the
top label is executed (R34); with an empty stack, time passes freely (R262). -/
def blockMove (s : State) : Result :=
  if s.pins.rst then .next s
  else if s.stat.yieldReq then (if s.pins.yieldAck then endYield s else .next s.tick)
  else if 0 < s.work.wcnt then waitTick s
  else
    match s.ctl with
    | [] => .next s.tick
    | f :: rest => statement f rest s

end Sys2Proof.Machine
end

