-- ==== Sys2Proof/Machine/Dispatch.lean ====
section
/-! DEFINITION. The meaning of a command: one arm per constructor (R92). -/

namespace Sys2Proof.Machine

def exec (i : Instr) (s : State) : Host.Outcome State Fault Refusal :=
  match i with
  | .start => Sys2Proof.Machine.execStart s
  | .connreset => Sys2Proof.Machine.execConnreset s
  | .meas sel hook => Sys2Proof.Machine.execMeas sel hook s
  | .rdstat => Sys2Proof.Machine.execRdstat s
  | .wrstat value => Sys2Proof.Machine.execWrstat value s
  | .wrbyte value => Sys2Proof.Machine.execWrbyte value s
  | .rdbyte ack => Sys2Proof.Machine.execRdbyte ack s

end Sys2Proof.Machine
end

