-- ==== Sys2Proof/Machine/HostPort.lean ====
section
/-! DEFINITION. The host port: host actions (R40, R62, R63, R250), the agenda, and what the next move is (log 2). -/

namespace Sys2Proof.Machine

/-- A host action other than a command offer. A hook return is looked at only while `yield_req` = 1
(R40); `rst` = 1 resets the block, and `rst` = 0 lets it start (R250, R251). A write to CMD stands in
`nextMove`, which decodes it. -/
def hostAct (a : HostAct) (s : State) : Result :=
  match a with
  | .read addr => .next (s.hostRead addr)
  | .write addr v => .next (s.hostWrite addr v)
  | .hookReturn => if s.stat.yieldReq then endYield s else .next s
  | .driveAck level => .next (s.driveAck level)
  | .driveRst level => .next (if level then s.assertRst else s.releaseRst)

/-- WAITIDLE (R104): the host reads STAT; while BUSY is 1 the block moves once and the host reads
again (log 18). -/
def waitIdle (s : State) : State :=
  let t := s.hostRead 1
  if s.stat.busy then { t with world := { t.world with agenda := .run :: .waitIdle :: t.world.agenda } }
  else t

/-- The host watches the output `yield_req` (R229) until it is 1: while no yield is pending and a command
runs, the block moves once and the host looks again. An idle block raises no yield, so the host goes on
(log 21). -/
def waitYield (s : State) : State :=
  if s.stat.yieldReq = false ∧ s.stat.busy = true then
    { s with world := { s.world with agenda := .run :: .waitYield :: s.world.agenda } }
  else s

/-- What the next step does: a legal command word was written to CMD, or some other move with its
outcome. -/
inductive NextMove where
  | command (i : Instr) (s : State)
  | other (r : Result)

/-- The state after the head of the agenda is taken. -/
def State.taken (rest : List Move) (s : State) : State := { s with world := { s.world with agenda := rest } }

/-- A host write: a write to CMD is decoded (R26), and an illegal word is rejected (R228); any other
word is R63's. -/
def writeMove (addr : Addr) (v : Word) (s : State) : NextMove :=
  if addr.toNat = 0 then
    match decode v with
    | .command i => .command i s
    | .illegal _ => .other (.next s.reject)
  else .other (hostAct (.write addr v) s)

/-- The next move: the head of the agenda, or the block's own move when the agenda is empty (log 2). -/
def nextMove (s : State) : NextMove :=
  match s.world.agenda with
  | [] => .other (blockMove s)
  | .run :: rest => .other (blockMove (s.taken rest))
  | .waitIdle :: rest => .other (.next (waitIdle (s.taken rest)))
  | .waitYield :: rest => .other (.next (waitYield (s.taken rest)))
  | .host (.write addr v) :: rest => writeMove addr v (s.taken rest)
  | .host a :: rest => .other (hostAct a (s.taken rest))

/-- The block idle and ready for a command (R38, R160): what the automatic bus reset leaves (R251).
A block that is already idle is not changed. -/
def State.idled (s : State) : State :=
  if s.stat.busy || s.pins.rst then
    { s with
      line := { s.line with sckOe := .driven, sckO := .low, sdaOe := .released }
      stat := { s.stat with busy := false, yieldReq := false }
      work := { s.work with wcnt := 0 }
      ctl := []
      pins := { s.pins with rst := false } }
  else s

/-- The idle block with a host write of `w` to CMD as the next move (log 1). -/
def State.withCommandWord (s : State) (w : Word) : State :=
  { s.idled with world := { s.world with agenda := .host (.write 0 w) :: s.world.agenda } }

/-- The command word of a table row's bits; bits that fit no command word leave the state alone. -/
def State.withTableWord (s : State) (nbits w : Nat) : State :=
  match tableWord nbits w with
  | some word => s.withCommandWord word
  | none => s

end Sys2Proof.Machine
end

