-- ==== Sys2Proof/Machine/Step.lean ====
section
/-! DEFINITION. One step of the machine: the next move of the agents (log 2). -/

namespace Sys2Proof.Machine

/-- One step: a legal command word written to CMD runs that command's meaning; any other move has its
own outcome. -/
def step (s : State) : Host.Outcome State Fault Refusal :=
  match nextMove s with
  | .command i t => exec i t
  | .other r => r

/-- The state whose very next step is the host's write of this command word to CMD, on an idle block
(log 1). -/
def State.withFetchWord (s : State) (nbits w : Nat) : State := s.withTableWord nbits w

end Sys2Proof.Machine
end

