-- ==== Sys2Proof/Machine/BigStep.lean ====
section
/-! DEFINITION. The big-step reading of the procedures and commands (R35): each procedure as a function of the state. It is
written from the listings a second time; that it agrees with the sequencer is a statement. -/

namespace Sys2Proof.Machine

/-- `WAIT n` (R121). -/
def bigWait (n : Nat) (s : State) : State :=
  { s.record (.wait n) with ticks := s.ticks + n, work := { s.work with wcnt := 0 } }

/-- PULSE(l) (R127). -/
def bigPulse (l : Level) (s : State) : State :=
  bigWait Config.holdTicks
    ((bigWait Config.setupTicks { s with work := { s.work with l := l } }).sck l)

/-- RELEASE (R128). -/
def bigRelease (s : State) : State := s.sdaDir .released

/-- The loop W2 of WRBYTE for the bits `m - 1` down to 0 (R141). -/
def bigWriteBits : Nat → State → State
  | 0, s => s
  | m + 1, s =>
    bigWriteBits m (bigPulse .low (bigPulse .high
      (State.sda (bitLevel s.work.v m) { s with work := { s.work with i := m } })))

/-- `e <- SAMPLE()` (R141 W5). -/
def sampleE (s : State) : State := { s.sampled with work := { s.work with e := s.answer } }

/-- WRBYTE(v) -> e (R141); the result is left in `e`. -/
def bigWrbyte (v : Byte) (s : State) : State :=
  bigPulse .low (sampleE (bigPulse .high (bigRelease (bigWriteBits Config.byteBits
    (State.sdaDir .driven { s with work := { s.work with v := v } })))))

/-- `r <- (r << 1)[7:0] | SAMPLE()` (R143 B2b). -/
def sampleR (s : State) : State :=
  { s.sampled with work := { s.work with r := shiftIn s.work.r s.answer } }

/-- The loop B2 of RDBYTE for the bits `m - 1` down to 0 (R143). -/
def bigReadBits : Nat → State → State
  | 0, s => s
  | m + 1, s =>
    bigReadBits m (bigPulse .low (sampleR (bigPulse .high { s with work := { s.work with i := m } })))

/-- RDBYTE(a) -> r (R143); the result is left in `r`. -/
def bigRdbyte (a : Level) (s : State) : State :=
  bigRelease (bigPulse .low (bigPulse .high (State.sda (!a) (State.sdaDir .driven
    (bigReadBits Config.byteBits { s with work := { s.work with a := a, r := 0x00 } })))))

/-- START (R162). -/
def bigStart (s : State) : State :=
  bigPulse .low (bigRelease (bigPulse .high (bigPulse .low (State.sda .low (bigPulse .high
    (State.sda .high (State.sdaDir .driven (bigPulse .low s))))))))

/-- The loop Q3 of CONNRESET with `m` clock pulses to go (R164). -/
def bigResetPulses : Nat → State → State
  | 0, s => s
  | m + 1, s =>
    bigResetPulses m (bigPulse .low (bigPulse .high
      { s with work := { s.work with k := Config.resetPulses - m } }))

/-- CONNRESET (R164). -/
def bigConnreset (s : State) : State :=
  bigStart (bigResetPulses Config.resetPulses (State.sda .high (State.sdaDir .driven
    (bigPulse .low (State.sckDir .driven s)))))

/-- `YIELD(h)` (R168): the default wait, or a suspension of `d` ticks. -/
def bigYield (hook : Bool) (d : Nat) (s : State) : State :=
  if hook then { s.record .yield with ticks := s.ticks + d } else bigWait Config.pollWaitTicks s

/-- `s <- SAMPLE()` of poll iteration `n` (R166 M3a). -/
def samplePoll (n : Nat) (s : State) : State :=
  { s.sampled with work := { s.work with n := n, s := s.answer } }

/-- The loop M3 of MEAS with `m` polls to go; `d n` is the duration of the yield after poll `n`. The
result says whether the device was ready (R166, R171). -/
def bigPolls (hook : Bool) (d : Nat → Nat) : Nat → State → Bool × State
  | 0, s => (false, s)
  | m + 1, s =>
    if s.answer = .low then (true, samplePoll (Config.pollMax - m) s)
    else
      bigPolls hook d m (bigYield hook (d (Config.pollMax - m)) (samplePoll (Config.pollMax - m) s))

/-- The failure exit of MEAS: the cause, a bus reset, the result (R166 M8). -/
def bigMeasFail (c : Cause) (s : State) : State :=
  let t := bigConnreset { s with work := { s.work with cause := c } }
  { t with work := { t.work with res := .failure t.work.cause } }

/-- The retrieval of three bytes (R166 M4 to M6, R172). -/
def bigRetrieve (s : State) : State :=
  let s4 := bigRdbyte .high s
  let s5 := bigRdbyte .high { s4 with work := { s4.work with hi := s4.work.r } }
  let s6 := bigRdbyte .low { s5 with work := { s5.work with lo := s5.work.r } }
  { s6 with work := { s6.work with ck := s6.work.r } }

/-- The checksum test M7 and the two exits of MEAS after a retrieval (R166, R174). -/
def bigCheck (s : State) : State :=
  if s.work.ck = expected s.crcEn s.work.hi s.work.lo then
    { s with work := { s.work with res := .success (rawOf s.work.hi s.work.lo) } }
  else bigMeasFail .checksumMismatch s

/-- MEAS(sel, h) (R166); the result is left in `res`. -/
def bigMeas (sel : Sel) (hook : Bool) (d : Nat → Nat) (s : State) : State :=
  let p := bigPolls hook d Config.pollMax (bigWrbyte (code sel) (bigStart s))
  if p.1 then bigCheck (bigRetrieve p.2) else bigMeasFail .pollTimeout p.2

/-- RDSTAT -> (r, e1) (R177). -/
def bigRdstat (s : State) : State :=
  let s2 := bigWrbyte Config.statusRdCode (bigStart s)
  bigRdbyte .low { s2 with work := { s2.work with e1 := s2.work.e } }

/-- WRSTAT(value) -> e (R179); the result is left in `e`. -/
def bigWrstat (value : Byte) (s : State) : State :=
  let s2 := bigWrbyte Config.statusWrCode (bigStart s)
  let s3 := bigWrbyte value { s2 with work := { s2.work with e1 := s2.work.e } }
  { s3 with work := { s3.work with e2 := s3.work.e, e := s3.work.e1 || s3.work.e } }

/-- A command from its acceptance to its completion (R163, R165, R169, R177, R179, R142, R144); `d n`
is the duration of the hooked yield after poll `n`. -/
def bigCommand (d : Nat → Nat) (i : Instr) (s : State) : State :=
  match i with
  | .start => completeStart (bigStart s)
  | .connreset => completeConnreset (bigConnreset s)
  | .meas sel hook => completeMeas (bigMeas sel hook d s)
  | .rdstat => completeRdstat (bigRdstat s)
  | .wrstat value => completeWrstat (bigWrstat value s)
  | .wrbyte value => completeWrbyte (bigWrbyte value s)
  | .rdbyte ack => completeRdbyte (bigRdbyte ack s)

end Sys2Proof.Machine
end

