-- ==== Sys2Proof/Machine/Script.lean ====
section
/-! DEFINITION. The script notation (R103, R104): host actions written as lines, expanded into agenda moves, and the two
lines by which a script says when the host acts (R72, log 21). -/

namespace Sys2Proof.Machine

/-- The names of the window words (R61). -/
inductive WindowReg where
  | cmd | stat | cfg | rdata | temp | humi | tempFx | humiFx
  deriving DecidableEq, Repr

/-- The word address of a window word (R61). -/
def WindowReg.addr : WindowReg → Addr
  | .cmd => 0
  | .stat => 1
  | .cfg => 2
  | .rdata => 3
  | .temp => 4
  | .humi => 5
  | .tempFx => 6
  | .humiFx => 7

/-- A line of a script (R103, R104). -/
inductive ScriptLine where
  /-- a command line, with the WAITIDLE that follows it unless the script says otherwise (R104) -/
  | command (i : Instr) (wait : Bool)
  | waitIdle
  | rd (reg : WindowReg)
  | wrcfg (imm : Word)
  | hookret
  | reset
  | calc
  /-- not of R104: the host lets the block make `moves` moves before its next action (R72, log 21) -/
  | pause (moves : Nat)
  /-- not of R104: the host waits for a yield before its next action (R229, log 21) -/
  | waitYield
  deriving DecidableEq, Repr

/-- The host actions a script line stands for (R103, R104). HOOKRET raises `yield_ack` while `yield_req` = 1:
the host first waits for the yield (log 21). -/
def ScriptLine.expand : ScriptLine → List Move
  | .command i wait => .host (.write 0 (encode i)) :: (if wait then [.waitIdle] else [])
  | .waitIdle => [.waitIdle]
  | .rd reg => [.host (.read reg.addr)]
  | .wrcfg imm => [.host (.write 2 imm)]
  | .hookret => [.waitYield, .host .hookReturn]
  | .reset => [.host (.driveRst true), .host (.driveRst false)]
  | .calc => [.host (.read WindowReg.humiFx.addr), .host (.read WindowReg.tempFx.addr)]
  | .pause moves => List.replicate moves .run
  | .waitYield => [.waitYield]

/-- The agenda of a script. -/
def expandScript (lines : List ScriptLine) : List Move := lines.flatMap ScriptLine.expand

/-- The script of a host that answers the yields of a hooked MEAS (R168): for each of `m` yields it waits for
the yield, lets `d n` ticks pass after the yield of poll `n`, and returns the hook. -/
def hookScript (d : Nat → Nat) (m : Nat) : List ScriptLine :=
  (List.range m).flatMap fun n => [.waitYield, .pause (d (n + 1)), .hookret]

/-- The state in which the host is about to run a script (log 1). -/
def State.withScript (s : State) (lines : List ScriptLine) : State :=
  { s with world := { s.world with agenda := expandScript lines } }

end Sys2Proof.Machine
end

