-- ==== Sys2Proof/Machine/WireFormats.lean ====
section
/-! DEFINITION. The wire formats of R96 to R100 as timed line events, oldest first, from the first event's tick. They are
written from the tables of R96 to R99, not from the procedures. -/

namespace Sys2Proof.Machine

/-- A clock-level write two ticks after `t`, with its setup and hold waits (R127). -/
def pulseEvents (t : Nat) (l : Level) : List LineEvent :=
  [⟨t, .wait 2⟩, ⟨t + 2, .sck l⟩, ⟨t + 2, .wait 5⟩]

/-- A slot: the clock rises at `t + 2` and falls at `t + 9` (R96, R99). -/
def slotEvents (t : Nat) : List LineEvent := pulseEvents t .high ++ pulseEvents (t + 7) .low

/-- The start condition, 35 ticks (R98). -/
def startEvents (t : Nat) : List LineEvent :=
  pulseEvents t .low ++ [⟨t + 7, .sdaDir .driven⟩, ⟨t + 7, .sda .high⟩] ++
    pulseEvents (t + 7) .high ++ [⟨t + 14, .sda .low⟩] ++ pulseEvents (t + 14) .low ++
    pulseEvents (t + 21) .high ++ [⟨t + 28, .sdaDir .released⟩] ++ pulseEvents (t + 28) .low

/-- The bus reset, 168 ticks (R99): nine slots with the data line held high, then the start condition. -/
def busResetEvents (t : Nat) : List LineEvent :=
  [⟨t, .sckDir .driven⟩] ++ pulseEvents t .low ++
    [⟨t + 7, .sdaDir .driven⟩, ⟨t + 7, .sda .high⟩] ++
    (List.range 9).flatMap (fun k => slotEvents (t + 7 + 14 * k)) ++ startEvents (t + 133)

/-- The write frame of a byte, 126 ticks, with `e` sampled in the acknowledge slot (R96). -/
def writeFrame (t : Nat) (v : Byte) (e : Level) : List LineEvent :=
  [⟨t, .sdaDir .driven⟩] ++
    (List.range 8).flatMap (fun j => ⟨t + 14 * j, .sda (v.getLsbD (7 - j))⟩ :: slotEvents (t + 14 * j)) ++
    [⟨t + 112, .sdaDir .released⟩] ++ pulseEvents (t + 112) .high ++ [⟨t + 119, .sample e⟩] ++
    pulseEvents (t + 119) .low

/-- The read frame of a byte, 126 ticks, acknowledged with operand `a` (R97). -/
def readFrame (t : Nat) (v : Byte) (a : Level) : List LineEvent :=
  (List.range 8).flatMap (fun j =>
      pulseEvents (t + 14 * j) .high ++ [⟨t + 14 * j + 7, .sample (v.getLsbD (7 - j))⟩] ++
        pulseEvents (t + 14 * j + 7) .low) ++
    [⟨t + 112, .sdaDir .driven⟩, ⟨t + 112, .sda (!a)⟩] ++ slotEvents (t + 112) ++
    [⟨t + 126, .sdaDir .released⟩]

/-- The event of one yield of MEAS (R168): a WAIT without a hook, a YIELD with one. -/
def yieldEvent (hook : Bool) (t : Nat) : LineEvent :=
  ⟨t, if hook then .yield else .wait Config.pollWaitTicks⟩

/-- `m` polls that read 1, each with the yield that follows it, `y` ticks apart (R166, R171). -/
def pollEvents (hook : Bool) (t y m : Nat) : List LineEvent :=
  (List.range m).flatMap (fun n => [⟨t + n * y, .sample .high⟩, yieldEvent hook (t + n * y)])

/-- The three read frames of a retrieval (R172): the first two acknowledged, the third not. -/
def retrievalEvents (t : Nat) (hi lo ck : Byte) : List LineEvent :=
  readFrame t hi .high ++ readFrame (t + 126) lo .high ++ readFrame (t + 252) ck .low

end Sys2Proof.Machine
end

