-- ==== Sys2Proof/Safety.lean ====
section
/-! DEFINITION. What a sound state of the block is (R33, R34, R38, R129), in the terms the statements use. -/

namespace Sys2Proof.Machine

/-- The idle line state (R11, R38): clock driven low, data released. -/
def State.idleLine (s : State) : Prop :=
  s.line.sckOe = .driven ∧ s.line.sckO = .low ∧ s.line.sdaOe = .released

/-- The block is idle and accepts a command: reset released, BUSY = 0, nothing in progress (R160). -/
def State.ready (s : State) : Prop :=
  s.pins.rst = false ∧ s.stat.busy = false ∧ s.stat.yieldReq = false ∧ s.work.wcnt = 0 ∧ s.ctl = []

/-- Only the block and time move: the host does nothing more and no script is pending (log 2). -/
def State.alone (s : State) : Prop := s.world.agenda = []

/-- The wrapper a command runs in (R160). -/
def wrapperOf : Instr → WrapAt
  | .start => .x1a
  | .connreset => .x2a
  | .meas _ _ => .x3a
  | .rdstat => .x4a
  | .wrstat _ => .x5a
  | .wrbyte _ => .x6a
  | .rdbyte _ => .x7a

/-- STAT after a command that was accepted and has completed (R160, R161): BUSY and ILL are 0, ERR and
CAUSE are the result, the other fields are as before. -/
def Stat.completed (f : Stat) (err : Bool) (cause : Cause) : Stat :=
  { f with busy := false, ill := false, err := err, cause := cause }

/-- The model's own fields after `m` samples answered from the list (log 3). -/
def World.used (w : World) (m : Nat) (rest : List Level) : World :=
  { w with answers := rest, draws := w.draws + m }

/-- The duration of one yield with the hook returned at once, or of the default wait (R168). -/
def yieldTicks (hook : Bool) : Nat := if hook then 0 else Config.pollWaitTicks

/-- The end of a run (R264): no command runs, no yield is pending, and the host does nothing more. -/
def State.ended (s : State) : Prop :=
  s.stat.busy = false ∧ s.stat.yieldReq = false ∧ s.world.agenda = []

/-- What a run shows (R264): the line trace from tick 0, the eight window words, and the values the
host's reads returned, in order. -/
def State.observation (s : State) : List LineEvent × List Word × List (Addr × Word) :=
  (s.trace.reverse, [0, 1, 2, 3, 4, 5, 6, 7].map s.readWord, s.world.readLog.reverse)

/-- The procedure a frame belongs to (R33). -/
def procOf : Frame → Proc
  | .pulse _ => .pulse
  | .release => .release
  | .wrbyte _ => .wrbyte
  | .rdbyte _ => .rdbyte
  | .start _ => .start
  | .connreset _ => .connreset
  | .meas _ => .meas
  | .rdstat _ => .rdstat
  | .wrstat _ => .wrstat
  | .wrapper _ => .wrapper

/-- The procedure that the CALL statement at a frame's label calls, if it is one (the listings of R141,
R143, R162 to R169, R177, R179). -/
def callOf : Frame → Option Proc
  | .wrbyte .w2b | .wrbyte .w2c | .wrbyte .w4 | .wrbyte .w6 => some .pulse
  | .wrbyte .w3 => some .release
  | .rdbyte .b2a | .rdbyte .b2c | .rdbyte .b5 | .rdbyte .b6 => some .pulse
  | .rdbyte .b7 => some .release
  | .start .s1 | .start .s3 | .start .s5 | .start .s6 | .start .s8 => some .pulse
  | .start .s7 => some .release
  | .connreset .q1pulse | .connreset .q3a | .connreset .q3b => some .pulse
  | .connreset .q4 => some .start
  | .meas .m1 => some .start
  | .meas .m2 => some .wrbyte
  | .meas .m4 | .meas .m5 | .meas .m6 => some .rdbyte
  | .meas .m8call => some .connreset
  | .rdstat .t1 | .wrstat .v1 => some .start
  | .rdstat .t2 | .wrstat .v2 | .wrstat .v3 => some .wrbyte
  | .rdstat .t3 => some .rdbyte
  | .wrapper .x1a => some .start
  | .wrapper .x2a => some .connreset
  | .wrapper .x3a => some .meas
  | .wrapper .x4a => some .rdstat
  | .wrapper .x5a => some .wrstat
  | .wrapper .x6a => some .wrbyte
  | .wrapper .x7a => some .rdbyte
  | _ => none

/-- A control stack the listings allow (R33, R34): each frame was called by the statement at the label
of the frame under it, and the last frame is a wrapper. -/
def stackOk : List Frame → Bool
  | [] => true
  | [f] => procOf f == .wrapper
  | f :: g :: rest => callOf g == some (procOf f) && stackOk (g :: rest)

/-- The clock level while the statement at a frame's label is to be executed (from the listings). For
PULSE and RELEASE the caller's label decides. -/
def clockAt : Frame → Level
  | .wrbyte .w2c | .wrbyte .w5 | .wrbyte .w6 => .high
  | .rdbyte .b2b | .rdbyte .b2c | .rdbyte .b6 => .high
  | .start .s4 | .start .s5 | .start .s7 | .start .s8 => .high
  | .connreset .q3b => .high
  | _ => .low

/-- The data direction while the statement at a frame's label is to be executed (from the listings);
START is entered with the line released or, from CONNRESET, driven. -/
def dirAt : Frame → Option Dir
  | .wrbyte .w2 | .wrbyte .w2a | .wrbyte .w2b | .wrbyte .w2c | .wrbyte .w3 => some .driven
  | .rdbyte .b4 | .rdbyte .b5 | .rdbyte .b6 | .rdbyte .b7 => some .driven
  | .start .s1 | .start .s2dir => none
  | .start .s8 => some .released
  | .start _ => some .driven
  | .connreset .q1dir | .connreset .q1pulse | .connreset .q2dir => some .released
  | .connreset _ => some .driven
  | _ => some .released

/-- The level of the PULSE that the statement at a frame's label calls (from the listings). -/
def pulseLevelAt : Frame → Level
  | .wrbyte .w2b | .wrbyte .w4 => .high
  | .rdbyte .b2a | .rdbyte .b5 => .high
  | .start .s3 | .start .s6 => .high
  | .connreset .q3a => .high
  | _ => .low

/-- The data direction agrees with a frame's label. -/
def State.dirOk (s : State) (f : Frame) : Prop :=
  match dirAt f with
  | none => True
  | some d => s.line.sdaOe = d

/-- The clock pin is an output, except before the first statement of CONNRESET after reset (R38, R39). -/
def State.clockDriven (s : State) (f : Frame) : Prop :=
  f = .wrapper .x2a ∨ f = .connreset .q1dir ∨ s.line.sckOe = .driven

/-- The line signals agree with the position of the sequencer; with an empty stack the line is idle
(R38). -/
def State.lineOk (s : State) : Prop :=
  match s.ctl with
  | [] => s.idleLine
  | .pulse p :: f :: _ =>
    s.line.sckOe = .driven ∧ s.dirOk f ∧ s.work.l = pulseLevelAt f ∧
      s.line.sckO = (if p = .p3 then s.work.l else clockAt f)
  | .release :: f :: _ => s.line.sckOe = .driven ∧ s.dirOk f ∧ s.line.sckO = clockAt f
  | f :: _ => s.clockDriven f ∧ s.dirOk f ∧ s.line.sckO = clockAt f

/-- A running WAIT stands at a WAIT statement and has no more ticks left than the statement loads
(R121, R127, R168). -/
def State.waitOk (s : State) : Prop :=
  s.work.wcnt = 0 ∨
    match s.ctl with
    | .pulse .p1 :: _ => s.work.wcnt ≤ Config.setupTicks
    | .pulse .p3 :: _ => s.work.wcnt ≤ Config.holdTicks
    | .meas .m3c :: _ => s.work.wcnt ≤ Config.pollWaitTicks ∧ hookOperand s.work.arg = false
    | _ => False

/-- A pending yield stands at the statement M3c of a hooked MEAS (R27, R168). -/
def State.yieldOk (s : State) : Prop :=
  s.stat.yieldReq = true →
    s.work.wcnt = 0 ∧ hookOperand s.work.arg = true ∧ ∃ rest, s.ctl = .meas .m3c :: rest

/-- The pending error class is one of MEAS's while its failure exit runs (R166, R220). -/
def State.causeOk (s : State) : Prop :=
  ((.meas .m8call ∈ s.ctl ∨ .meas .m8ret ∈ s.ctl) →
      s.work.cause = .pollTimeout ∨ s.work.cause = .checksumMismatch) ∧
    (.wrapper .x3b ∈ s.ctl →
      s.work.res ≠ .failure .none ∧ s.work.res ≠ .failure .noAck)

/-- ERR says whether CAUSE names an error class (R220). -/
def State.errOk (s : State) : Prop := s.stat.err = true ↔ s.stat.cause ≠ .none

/-- The loop counters fit the widths R32 gives them. That they do so at reset, where R39 leaves them
unspecified, is the model's choice (log 6, DESIGN CHOICE). -/
def State.countersOk (s : State) : Prop :=
  s.work.i ≤ 7 ∧ s.work.k ≤ Config.resetPulses ∧ s.work.n ≤ Config.pollMax

/-- The opcode whose wrapper a statement label belongs to (R160). -/
def wrapperOp : WrapAt → BitVec 4
  | .x1a | .x1b => 0x1
  | .x2a | .x2b => 0x2
  | .x3a | .x3b => 0x3
  | .x4a | .x4b => 0x4
  | .x5a | .x5b => 0x5
  | .x6a | .x6b => 0x6
  | .x7a | .x7b => 0x7

/-- CMD holds a legal command word, `op` and `arg` are its fields, and the wrapper that runs is that of
`op` (R26, R160). -/
def State.commandOk (s : State) : Prop :=
  (fieldsOf s.cmd).legal = true ∧ s.work.op = (fieldsOf s.cmd).op ∧
    s.work.arg = (fieldsOf s.cmd).arg ∧ ∀ x, .wrapper x ∈ s.ctl → wrapperOp x = s.work.op

/-- While `rst` is 1 every piece of the block's state holds its reset value (R250). The working registers that
R39 leaves unspecified hold the values of log 6 (DESIGN CHOICE), the time and the trace are empty by log 8
(DESIGN CHOICE), and that a lost write sets no ILL is log 9 (DEDUCED). -/
def State.rstOk (s : State) : Prop := s.pins.rst = true → s = s.resetBlock

/-- The invariant of the machine: every state reached from reset meets it. -/
structure State.Inv (s : State) : Prop where
  /-- BUSY is 0 exactly when the stack is empty (R33). -/
  busyIff : s.stat.busy = false ↔ s.ctl = []
  stack : stackOk s.ctl = true
  line : s.lineOk
  wait : s.waitOk
  yield_ : s.yieldOk
  cause : s.causeOk
  err : s.errOk
  counters : s.countersOk
  command : s.commandOk
  rst : s.rstOk

/-- A line event on the data line: a level write, a direction write, or a sample (R129). -/
def onData (e : LineEvent) : Bool :=
  match e.op with
  | .sda _ | .sdaDir _ | .sample _ => true
  | _ => false

/-- A clock-level write. -/
def onClock (e : LineEvent) : Bool :=
  match e.op with
  | .sck _ => true
  | _ => false

/-- Two events of a trace, the first the newer, keep the spacing of R129: a clock-level write comes at
least SETUP_TICKS after every earlier data-line event and at least HOLD_TICKS before every later one. -/
def spacedPair (newer older : LineEvent) : Prop :=
  (onClock newer = true → onData older = true → older.tick + Config.setupTicks ≤ newer.tick) ∧
    (onData newer = true → onClock older = true → older.tick + Config.holdTicks ≤ newer.tick)

/-- Every two events of the line trace keep the spacing of R129. -/
def State.spaced (s : State) : Prop := s.trace.Pairwise spacedPair

/-- Every clock-level write of the trace is at least `m` ticks old. -/
def State.clockAge (s : State) (m : Nat) : Prop :=
  ∀ e ∈ s.trace, onClock e = true → e.tick + m ≤ s.ticks

/-- Every data-line event of the trace is at least `m` ticks old. -/
def State.dataAge (s : State) (m : Nat) : Prop :=
  ∀ e ∈ s.trace, onData e = true → e.tick + m ≤ s.ticks

/-- How long ago the line was last written, at the sequencer's position (R127): outside PULSE the last
clock write has been held; in its setup wait the data line has been still for the ticks waited; in its
hold wait the clock has been held for the ticks waited. -/
def State.ageOk (s : State) : Prop :=
  match s.ctl with
  | .pulse .p1 :: _ =>
    s.clockAge Config.holdTicks ∧ s.dataAge 0 ∧
      (0 < s.work.wcnt → s.dataAge (Config.setupTicks - s.work.wcnt))
  | .pulse .p2 :: _ => s.clockAge Config.holdTicks ∧ s.dataAge Config.setupTicks
  | .pulse .p3 :: _ =>
    s.clockAge 0 ∧ s.dataAge 0 ∧ (0 < s.work.wcnt → s.clockAge (Config.holdTicks - s.work.wcnt))
  | _ => s.clockAge Config.holdTicks ∧ s.dataAge 0

/-- The machine's invariant together with the timing contract of the lines (R129, R260). -/
def State.TimedInv (s : State) : Prop := s.Inv ∧ s.spaced ∧ s.ageOk

/-- The data line's level while the device does not drive it (R22). -/
def Lines.dataLevel (ln : Lines) : Level :=
  match ln.sdaOe with
  | .driven => ln.sdaO
  | .released => .high

/-- The line signals after a line event (R122 to R125). -/
def Lines.after (ln : Lines) (op : LineOp) : Lines :=
  match op with
  | .sck l => { ln with sckO := l }
  | .sckDir d => { ln with sckOe := d }
  | .sda l => { ln with sdaO := l }
  | .sdaDir d => { ln with sdaOe := d }
  | .wait _ | .sample _ | .yield => ln

/-- A line event is a rising clock edge: the driven clock goes from low to high. -/
def Lines.rises (ln : Lines) (op : LineOp) : Bool :=
  ln.sckOe == .driven && ln.sckO == .low && op == .sck .high

/-- What a peer that does not drive the line records (R145): the data line's level at each rising clock edge
of a list of events, oldest first, from the line signals before the first. -/
def edgeLevels (ln : Lines) : List LineEvent → List Level
  | [] => []
  | e :: rest =>
    if ln.rises e.op then ln.dataLevel :: edgeLevels (ln.after e.op) rest
    else edgeLevels (ln.after e.op) rest

end Sys2Proof.Machine
end

