-- ==== Sys2Proof/Certificates/Slice0/Obligations.lean ====
section
/-! DEFINITION. The statements for the provers. -/

open Sys2Proof Sys2Proof.Machine

/-! ### Encoding -/

/-- Words of every family, and illegal words, decode as the table of 95_test_vectors.md section 2.6 says. -/
def Obligations.ListedWordsDecodeAsTheTableSays : Prop :=
  decode 0x00000100 = .command .start ∧ decode 0x00000200 = .command .connreset ∧
  decode 0x00000300 = .command (.meas .temp false) ∧ decode 0x00000301 = .command (.meas .humi false) ∧
  decode 0x00000302 = .command (.meas .temp true) ∧ decode 0x00000303 = .command (.meas .humi true) ∧
  decode 0x00000400 = .command .rdstat ∧ decode 0x00000501 = .command (.wrstat 0x01) ∧
  decode 0x000006A5 = .command (.wrbyte 0xA5) ∧ decode 0x00000700 = .command (.rdbyte false) ∧
  decode 0x00000701 = .command (.rdbyte true) ∧
  decode 0x00000000 = .illegal .reservedOpcode ∧ decode 0x00000101 = .illegal .operandBits ∧
  decode 0x000002FF = .illegal .operandBits ∧ decode 0x00000304 = .illegal .operandBits ∧
  decode 0x00000401 = .illegal .operandBits ∧ decode 0x00000702 = .illegal .operandBits ∧
  decode 0x00000800 = .illegal .reservedOpcode ∧ decode 0x00000F00 = .illegal .reservedOpcode ∧
  decode 0x00001100 = .illegal .highBits ∧ decode 0x80000100 = .illegal .highBits

/-- Every command is well formed, its word has the fields of R92 and R93, and the decoder reads the
command back from it. -/
def Obligations.DecodeReadsBackEveryEncodedCommand : Prop :=
  ∀ i : Instr, i.wellFormed = true ∧ fieldsOf (encode i) = i.fields ∧ decode (encode i) = .command i

/-- Each word that decodes to a command is that command's encoding: no two words mean one command. -/
def Obligations.DecodedWordIsTheCommandsEncoding : Prop :=
  ∀ (w : Word) (i : Instr), decode w = .command i → encode i = w

/-- A word is a command exactly when it is legal by the three conditions of R91. -/
def Obligations.WordIsACommandExactlyWhenLegal : Prop :=
  ∀ w : Word, (∃ i, decode w = .command i) ↔ (fieldsOf w).legal = true

/-- A word selects a row of the opcode map, `w & mask = match`, exactly when it decodes to a command of
that row; and no word selects two rows. -/
def Obligations.OpcodeRowSelectsExactlyItsCommands : Prop :=
  ∀ (w : Word) (row : OpcodeRow), row ∈ opcodeMap →
    (row.selects w = true ↔ ∃ i, decode w = .command i ∧ mnemonicOf i = row.mnemonic) ∧
    ∀ row' ∈ opcodeMap, row.selects w = true → row'.selects w = true → row' = row

/-! ### The host port: fetching, accepting and rejecting commands -/

/-- When the next move is the host's write of a word to CMD and the word decodes to a command, the step
is that command's meaning, on the state with the move taken from the agenda. -/
def Obligations.StepRunsTheDecodedCommand : Prop :=
  ∀ (s : State) (w : Word) (i : Instr) (rest : List Move),
    s.world.agenda = .host (.write 0 w) :: rest → decode w = .command i →
    step s = exec i { s with world := { s.world with agenda := rest } }

/-- An idle block accepts every command in one atomic step: CMD, `op`, `arg` take the word, BUSY is set,
ILL is cleared, the stack is the command's wrapper at its first statement, and nothing else changes. -/
def Obligations.IdleBlockAcceptsEveryCommand : Prop :=
  ∀ (i : Instr) (s : State), s.pins.rst = false → s.stat.busy = false →
    exec i s = .next
      { s with
        cmd := encode i
        stat := { s.stat with busy := true, ill := false }
        work := { s.work with op := i.fields.op, arg := i.fields.arg }
        ctl := [.wrapper (wrapperOf i)] }

/-- A busy block rejects every command: ILL is set and nothing else changes. -/
def Obligations.BusyBlockRejectsEveryCommand : Prop :=
  ∀ (i : Instr) (s : State), s.pins.rst = false → s.stat.busy = true →
    exec i s = .next { s with stat := { s.stat with ill := true } }

/-- A write to CMD of an illegal word, or of any word while BUSY = 1, sets ILL and changes nothing else:
the word is lost. ILL is cleared by the next accepted write and by reset. -/
def Obligations.CmdWriteIsRejectedWhenIllegalOrBusy : Prop :=
  (∀ (s : State) (w : Word) (rest : List Move),
    s.world.agenda = .host (.write 0 w) :: rest → s.pins.rst = false →
    (((fieldsOf w).legal = false ∨ s.stat.busy = true) → step s = .next
      { s with stat := { s.stat with ill := true }, world := { s.world with agenda := rest } }) ∧
    ((fieldsOf w).legal = true → s.stat.busy = false →
      ∃ t, step s = .next t ∧ t.cmd = w ∧ t.stat.busy = true ∧ t.stat.ill = false)) ∧
  ∀ s : State, s.assertRst.stat.ill = false

/-- A host read returns the word of the window table for each of the eight addresses, and changes no
state of the block. -/
def Obligations.HostReadReturnsTheWindowWord : Prop :=
  ∀ (s : State) (a : Addr) (rest : List Move), s.world.agenda = .host (.read a) :: rest →
    ∃ v : Word,
      step s = .next
        { s with world := { s.world with agenda := rest, readLog := (a, v) :: s.world.readLog } } ∧
      (a = 0 → v = s.cmd) ∧
      (a = 1 → v.getLsbD 0 = s.stat.busy ∧ v.getLsbD 1 = s.stat.err ∧
        v.extractLsb' 2 2 = causeCode s.stat.cause ∧ v.getLsbD 4 = s.stat.tvalid ∧
        v.getLsbD 5 = s.stat.hvalid ∧ v.getLsbD 6 = s.stat.ill ∧ v.getLsbD 7 = s.stat.yieldReq ∧
        v.extractLsb' 8 24 = 0) ∧
      (a = 2 → v = if s.crcEn then 1 else 0) ∧ (a = 3 → v.toNat = s.rdata.toNat) ∧
      (a = 4 → v.toNat = s.temp.toNat) ∧ (a = 5 → v.toNat = s.humi.toNat) ∧
      (a = 6 → v.toInt = cvtT s.temp) ∧ (a = 7 → v.toInt = cvtRh s.humi)

/-- A host write acts by its address: word 0 offers the word as a command, word 2 sets CRC_EN from bit 0
when BUSY = 0, and every other write changes nothing. -/
def Obligations.HostWriteActsByItsAddress : Prop :=
  ∀ (s : State) (a : Addr) (v : Word) (rest : List Move), s.pins.rst = false →
    s.world.agenda = .host (.write a v) :: rest →
    (a = 0 → step s =
      match decode v with
      | .command i => exec i { s with world := { s.world with agenda := rest } }
      | .illegal _ => .next
        { s with stat := { s.stat with ill := true }, world := { s.world with agenda := rest } }) ∧
    (a = 2 → step s = .next
      { s with
        crcEn := if s.stat.busy then s.crcEn else v.getLsbD 0
        world := { s.world with agenda := rest } }) ∧
    (a ≠ 0 → a ≠ 2 → step s = .next { s with world := { s.world with agenda := rest } })

/-- Driving `rst` to 1 puts every piece of the block's state at its reset value, whatever runs; while
`rst` is 1 the block does not move and a command word, legal or not, is lost; and `rst` back at 0 leaves
the reset values. That a word lost under reset sets no ILL and that no tick passes then is the model's reading
of R250 (log 9, DEDUCED), and that `rst` = 1 empties the trace and the time is its choice (log 8, DESIGN
CHOICE). The values of v, r, a, e, e1, e2, i, k, n, s, hi, lo, ck, cause, l and res, which R39 leaves
unspecified, are the model's choice too (log 6, DESIGN CHOICE). -/
def Obligations.ResetWinsOverEverything : Prop :=
  ∀ (s : State) (i : Instr),
    (∃ t, hostAct (.driveRst true) s = .next t ∧ t = { s.resetBlock with pins := { s.pins with rst := true } } ∧
      blockMove t = .next t ∧ exec i t = .next t ∧ t.reject = t ∧
      hostAct (.driveRst false) t = .next { s.resetBlock with pins := { s.pins with rst := false } })

/-- Host accesses do not disturb a running command: the block's next move is the same after a host read,
after a host write to a word other than CMD, and after a rejected write to CMD, but for the read log and
ILL. -/
def Obligations.HostAccessesDoNotDisturbTheBlock : Prop :=
  ∀ (s t : State) (a : Addr) (v : Word), s.pins.rst = false → s.stat.busy = true →
    blockMove s = .next t →
    blockMove (s.hostRead a) =
      .next { t with world := { t.world with readLog := (a, s.readWord a) :: t.world.readLog } } ∧
    s.hostWrite a v = s ∧
    blockMove s.reject = .next { t with stat := { t.stat with ill := true } }

/-- WAITIDLE: the host reads STAT; with BUSY = 0 it is done, with BUSY = 1 the block moves once and the
host reads again. That the block moves once between two reads is the model's choice (log 18). -/
def Obligations.WaitidleReadsStatUntilIdle : Prop :=
  ∀ (s : State) (rest : List Move), s.world.agenda = .waitIdle :: rest →
    step s = .next
      { s with
        world :=
          { s.world with
            agenda := if s.stat.busy then .run :: .waitIdle :: rest else rest
            readLog := (1, s.stat.word) :: s.world.readLog } }

/-! ### The commands from acceptance to completion -/

/-- START: accepted by an idle block, it completes 35 ticks later with ERR = 0, CAUSE = 0, having put
exactly the start condition of R98 on the line; the line is left with `sda_o` = 0, clock low, data
released; no other register of the host changes. -/
def Obligations.StartCompletesWithTheStartCondition : Prop :=
  ∀ s : State, s.ready → s.alone →
    ∃ t k u, exec .start s = .next t ∧ t.stat.busy = true ∧ Host.Core.run core k t = .next u ∧
      u = { s with
            line := ⟨.low, s.line.sckOe, .low, .released⟩
            cmd := 0x00000100
            stat := s.stat.completed false .none
            work := u.work
            ticks := s.ticks + 35
            trace := (startEvents s.ticks).reverse ++ s.trace }

/-- CONNRESET: accepted by an idle block, it completes 168 ticks later with ERR = 0, CAUSE = 0, having
put exactly the bus reset of R99 on the line; TEMP, HUMI, the VALID flags, RDATA and CFG do not change. -/
def Obligations.ConnresetCompletesWithTheBusReset : Prop :=
  ∀ s : State, s.ready → s.alone →
    ∃ t k u, exec .connreset s = .next t ∧ t.stat.busy = true ∧ Host.Core.run core k t = .next u ∧
      u = { s with
            line := ⟨.low, .driven, .low, .released⟩
            cmd := 0x00000200
            stat := s.stat.completed false .none
            work := u.work
            ticks := s.ticks + 168
            trace := (busResetEvents s.ticks).reverse ++ s.trace }

/-- WRBYTE: accepted by an idle block, it completes 126 ticks later, having put exactly the write frame
of R96 on the line; ERR and CAUSE report the sampled acknowledge (NoAck when it is 1), no bus reset
follows; RDATA, TEMP, HUMI and the VALID flags do not change. -/
def Obligations.WrbyteCompletesWithTheWriteFrame : Prop :=
  ∀ (s : State) (v : Byte) (e : Level) (as : List Level), s.ready → s.alone →
    s.world.answers = e :: as →
    ∃ t k u, exec (.wrbyte v) s = .next t ∧ t.stat.busy = true ∧ Host.Core.run core k t = .next u ∧
      u = { s with
            line := ⟨.low, s.line.sckOe, v.getLsbD 0, .released⟩
            cmd := encode (.wrbyte v)
            stat := s.stat.completed e (if e then .noAck else .none)
            work := u.work
            ticks := s.ticks + 126
            trace := (writeFrame s.ticks v e).reverse ++ s.trace
            world := s.world.used 1 as }

/-- RDBYTE: accepted by an idle block, it completes 126 ticks later, having put exactly the read frame
of R97 on the line; RDATA takes the byte whose bits were sampled, most significant first; ERR = 0,
CAUSE = 0. -/
def Obligations.RdbyteCompletesWithTheReadFrame : Prop :=
  ∀ (s : State) (v : Byte) (a : Bool) (as : List Level), s.ready → s.alone →
    s.world.answers = levelsOf v ++ as →
    ∃ t k u, exec (.rdbyte a) s = .next t ∧ t.stat.busy = true ∧ Host.Core.run core k t = .next u ∧
      u = { s with
            line := ⟨.low, s.line.sckOe, !a, .released⟩
            cmd := encode (.rdbyte a)
            stat := s.stat.completed false .none
            rdata := v
            work := u.work
            ticks := s.ticks + 126
            trace := (readFrame s.ticks v a).reverse ++ s.trace
            world := s.world.used 8 as }

/-- RDSTAT: a start condition, a write frame with STATUS_RD_CODE and a read frame that is not
acknowledged, 287 ticks; RDATA takes the byte read whether or not the command byte was acknowledged;
ERR and CAUSE report the acknowledge. -/
def Obligations.RdstatCompletesWithTheByteRead : Prop :=
  ∀ (s : State) (v : Byte) (e : Level) (as : List Level), s.ready → s.alone →
    s.world.answers = e :: (levelsOf v ++ as) →
    ∃ t k u, exec .rdstat s = .next t ∧ t.stat.busy = true ∧ Host.Core.run core k t = .next u ∧
      u = { s with
            line := ⟨.low, s.line.sckOe, .high, .released⟩
            cmd := 0x00000400
            stat := s.stat.completed e (if e then .noAck else .none)
            rdata := v
            work := u.work
            ticks := s.ticks + 287
            trace := (startEvents s.ticks ++ writeFrame (s.ticks + 35) Config.statusRdCode e ++
              readFrame (s.ticks + 161) v .low).reverse ++ s.trace
            world := s.world.used 9 as }

/-- WRSTAT: a start condition and two write frames, STATUS_WR_CODE and the value, 287 ticks; the second
byte is sent even when the first was not acknowledged; ERR is the OR of the two acknowledges; RDATA does
not change. -/
def Obligations.WrstatCompletesWithBothBytesSent : Prop :=
  ∀ (s : State) (v : Byte) (e1 e2 : Level) (as : List Level), s.ready → s.alone →
    s.world.answers = e1 :: e2 :: as →
    ∃ t k u, exec (.wrstat v) s = .next t ∧ t.stat.busy = true ∧ Host.Core.run core k t = .next u ∧
      u = { s with
            line := ⟨.low, s.line.sckOe, v.getLsbD 0, .released⟩
            cmd := encode (.wrstat v)
            stat := s.stat.completed (e1 || e2) (if e1 || e2 then .noAck else .none)
            work := u.work
            ticks := s.ticks + 287
            trace := (startEvents s.ticks ++ writeFrame (s.ticks + 35) Config.statusWrCode e1 ++
              writeFrame (s.ticks + 161) v e2).reverse ++ s.trace
            world := s.world.used 2 as }

/-- MEAS, success: when the device reads ready at poll `j + 1` (at most the 250th) and the third byte is
the expected checksum, MEAS completes after 539 + j * Y ticks with ERR = 0, CAUSE = 0; the register of
`sel` takes the two bytes, high byte first, and its VALID flag is set; the other register, its flag and
RDATA do not change; the acknowledge of the command byte does not matter. With a hook, every yield is
returned at once (`yield_ack` = 1), so Y = 0. The tick counts are the spec's own inference, R167; `crc8` is
from general knowledge (log 17). -/
def Obligations.MeasSucceedsWhenTheDeviceBecomesReady : Prop :=
  ∀ (s : State) (sel : Sel) (hook : Bool) (ack : Level) (j : Nat) (hi lo ck : Byte) (as : List Level),
    s.ready → s.alone → (hook = true → s.pins.yieldAck = true) → j < 250 →
    s.world.answers =
      ack :: (List.replicate j .high ++ .low :: (levelsOf hi ++ levelsOf lo ++ levelsOf ck ++ as)) →
    ck = (if s.crcEn then crc8 hi lo else 0x00) →
    ∃ t k u, exec (.meas sel hook) s = .next t ∧ t.stat.busy = true ∧ Host.Core.run core k t = .next u ∧
      u = { s with
            line := ⟨.low, s.line.sckOe, .high, .released⟩
            cmd := encode (.meas sel hook)
            temp := if sel = .temp then hi ++ lo else s.temp
            humi := if sel = .humi then hi ++ lo else s.humi
            stat :=
              { s.stat.completed false .none with
                tvalid := s.stat.tvalid || decide (sel = .temp)
                hvalid := s.stat.hvalid || decide (sel = .humi) }
            work := u.work
            ticks := s.ticks + 539 + j * yieldTicks hook
            trace := (startEvents s.ticks ++ writeFrame (s.ticks + 35) (code sel) ack ++
              pollEvents hook (s.ticks + 161) (yieldTicks hook) j ++
              [(⟨s.ticks + 161 + j * yieldTicks hook, .sample .low⟩ : LineEvent)] ++
              retrievalEvents (s.ticks + 161 + j * yieldTicks hook) hi lo ck).reverse ++ s.trace
            world := s.world.used (j + 26) as }

/-- MEAS, checksum failure: when the third byte differs from the expected checksum, a bus reset follows
the third read frame and MEAS completes after 707 + j * Y ticks with ERR = 1, CAUSE = 3; TEMP, HUMI, the
VALID flags and RDATA do not change. The tick counts are the spec's own inference, R167; `crc8` is from general
knowledge (log 17). -/
def Obligations.MeasFailsOnAWrongChecksum : Prop :=
  ∀ (s : State) (sel : Sel) (hook : Bool) (ack : Level) (j : Nat) (hi lo ck : Byte) (as : List Level),
    s.ready → s.alone → (hook = true → s.pins.yieldAck = true) → j < 250 →
    s.world.answers =
      ack :: (List.replicate j .high ++ .low :: (levelsOf hi ++ levelsOf lo ++ levelsOf ck ++ as)) →
    ck ≠ (if s.crcEn then crc8 hi lo else 0x00) →
    ∃ t k u, exec (.meas sel hook) s = .next t ∧ t.stat.busy = true ∧ Host.Core.run core k t = .next u ∧
      u = { s with
            line := ⟨.low, .driven, .low, .released⟩
            cmd := encode (.meas sel hook)
            stat := s.stat.completed true .checksumMismatch
            work := u.work
            ticks := s.ticks + 707 + j * yieldTicks hook
            trace := (startEvents s.ticks ++ writeFrame (s.ticks + 35) (code sel) ack ++
              pollEvents hook (s.ticks + 161) (yieldTicks hook) j ++
              [(⟨s.ticks + 161 + j * yieldTicks hook, .sample .low⟩ : LineEvent)] ++
              retrievalEvents (s.ticks + 161 + j * yieldTicks hook) hi lo ck ++
              busResetEvents (s.ticks + 539 + j * yieldTicks hook)).reverse ++ s.trace
            world := s.world.used (j + 26) as }

/-- MEAS, poll timeout: when the device reads 1 at all 250 polls, MEAS yields 250 times, runs a bus reset
and completes after 329 + 250 * Y ticks with ERR = 1, CAUSE = 2, the line idle; TEMP, HUMI, the VALID
flags and RDATA do not change. The tick counts are the spec's own inference, R167. -/
def Obligations.MeasTimesOutAfterExactly250Polls : Prop :=
  ∀ (s : State) (sel : Sel) (hook : Bool) (ack : Level) (as : List Level),
    s.ready → s.alone → (hook = true → s.pins.yieldAck = true) →
    s.world.answers = ack :: (List.replicate 250 .high ++ as) →
    ∃ t k u, exec (.meas sel hook) s = .next t ∧ t.stat.busy = true ∧ Host.Core.run core k t = .next u ∧
      u = { s with
            line := ⟨.low, .driven, .low, .released⟩
            cmd := encode (.meas sel hook)
            stat := s.stat.completed true .pollTimeout
            work := u.work
            ticks := s.ticks + 329 + 250 * yieldTicks hook
            trace := (startEvents s.ticks ++ writeFrame (s.ticks + 35) (code sel) ack ++
              pollEvents hook (s.ticks + 161) (yieldTicks hook) 250 ++
              busResetEvents (s.ticks + 161 + 250 * yieldTicks hook)).reverse ++ s.trace
            world := s.world.used 251 as }

/-- The small-step and the big-step reading agree: from its acceptance by an idle block, every command
(a hooked one with every hook returned at once) runs to exactly the state its big-step definition gives,
line trace, tick count and all registers (the spec's own inference, R35). What the working registers hold at the
end is the model's, which holds each of them once (log 5, DEDUCED). Longer hooks are the subject of
`Obligations.HookedRunIsTheBigStepResultForEveryDuration`. -/
def Obligations.SmallStepRunIsTheBigStepResult : Prop :=
  ∀ (i : Instr) (s : State), s.ready → s.alone →
    ((∃ sel, i = .meas sel true) → s.pins.yieldAck = true) →
    ∃ t k, exec i s = .next t ∧ t.stat.busy = true ∧
      Host.Core.run core k t = .next (bigCommand (fun _ => 0) i t)

/-- The small-step and the big-step reading agree for every yield duration: when the host answers each yield
of a hooked MEAS by returning the hook `d n` ticks after it is raised, every command runs from its acceptance
by an idle block to exactly the state its big-step definition gives for `d`, line trace, tick count and all
registers, with an unused rest of the host's moves (the spec's own inference, R35; the host's script is the
model's, log 21; that a tick of a pending yield is one move is log 4; what the working registers hold at the end
is log 5). -/
def Obligations.HookedRunIsTheBigStepResultForEveryDuration : Prop :=
  ∀ (i : Instr) (s : State) (d : Nat → Nat), s.ready → s.pins.yieldAck = false →
    s.world.agenda = expandScript (hookScript d 250) →
    ∃ t k rest, exec i s = .next t ∧ t.stat.busy = true ∧ rest <:+ s.world.agenda ∧
      Host.Core.run core k t = .next
        { bigCommand d i t with world := { (bigCommand d i t).world with agenda := rest } }

/-- A byte written from the idle line, and echoed back by a peer that recorded the level of the data line at
each of the eight rising clock edges of the data slots, is read back unchanged, and the write reports no error
(the spec's own inference, R145). -/
def Obligations.ByteRoundTripThroughAnEchoingPeer : Prop :=
  ∀ (s : State) (v : Byte) (a : Bool) (as : List Level), s.ready → s.alone → s.idleLine →
    s.world.answers = .low :: as →
    ∃ t k u ev, exec (.wrbyte v) s = .next t ∧ Host.Core.run core k t = .next u ∧
      u.stat.busy = false ∧ u.stat.err = false ∧ u.trace = ev ++ s.trace ∧
      (edgeLevels s.line ev.reverse).length = 9 ∧
      ∃ t' k' w,
        exec (.rdbyte a)
          { u with world := { u.world with answers := (edgeLevels s.line ev.reverse).take 8 } } =
            .next t' ∧
        Host.Core.run core k' t' = .next w ∧ w.stat.busy = false ∧ w.stat.err = false ∧ w.rdata = v

/-! ### Line control, yields, bytes -/

/-- PULSE(l) at any call site of the running block: ten moves later its frame is popped, seven ticks have
passed, the clock latch holds `l`, written two ticks after entry, and no other line signal has changed. That
these are ten moves is the model's division into steps (log 4, DEDUCED). -/
def Obligations.PulseWritesTheClockOnceInSevenTicks : Prop :=
  ∀ (s : State) (rest : List Frame), s.pins.rst = false → s.stat.yieldReq = false → s.work.wcnt = 0 →
    s.alone → s.ctl = .pulse .p1 :: rest →
    Host.Core.run core 10 s =
      finish
        { s with
          line := { s.line with sckO := s.work.l }
          ticks := s.ticks + 7
          trace := (pulseEvents s.ticks s.work.l).reverse ++ s.trace }
        rest

/-- Physical time: each tick takes a positive time, and the waits of PULSE, of at most HOLD_TICKS ticks, take
less than a millisecond each, as R6 and D2 bound T_TICK (milliseconds as rational numbers are log 11). -/
def Obligations.MicroDelaysAreSubMillisecond : Prop :=
  ∀ s : State, s.elapsed < s.tick.elapsed ∧
    (bigWait Config.setupTicks s).elapsed - s.elapsed < 1 ∧
    (bigWait Config.holdTicks s).elapsed - s.elapsed < 1

/-- The lines as an observer sees them: the clock line carries `sck_o` while driven; the data line carries
`sda_o` while driven and not opposed, reads high when released and not pulled, and otherwise the device's
level. -/
def Obligations.LineLevelsFollowLatchesAndDirections : Prop :=
  ∀ s : State,
    (s.line.sckOe = .driven → s.clockLevel = s.line.sckO) ∧
    (s.line.sdaOe = .driven → s.dataLevel none = s.line.sdaO ∧
      s.dataLevel (some s.line.sdaO) = s.line.sdaO) ∧
    (s.line.sdaOe = .released → s.dataLevel none = .high ∧ ∀ l, s.dataLevel (some l) = l)

/-- A pending yield is held for as long as the host does not return the hook: after any number of steps
only time has passed. That each step is one tick is the model's division into steps (log 4, DEDUCED), and that
`yield_ack` is a level that stays as last driven is its choice (log 10, DESIGN CHOICE). -/
def Obligations.PendingYieldHoldsUntilTheHookReturns : Prop :=
  ∀ (s : State) (k : Nat), s.alone → s.pins.rst = false → s.pins.yieldAck = false →
    s.stat.yieldReq = true → Host.Core.run core k s = .next { s with ticks := s.ticks + k }

/-- A hooked MEAS that reaches M3c raises `yield_req` and records the event; the hook return clears it and
goes on with the next poll, or with M3d after the 250th, at the same instant. -/
def Obligations.HookedYieldIsRaisedAndReturned : Prop :=
  ∀ (s : State) (rest : List Frame), s.pins.rst = false → s.stat.yieldReq = false → s.work.wcnt = 0 →
    hookOperand s.work.arg = true → s.ctl = .meas .m3c :: rest →
    ∃ t, blockMove s = .next t ∧
      t = { s with
            stat := { s.stat with yieldReq := true }
            trace := ⟨s.ticks, .yield⟩ :: s.trace } ∧
      (s.work.n < 250 → hostAct .hookReturn t = .next
        { t with
          stat := s.stat
          work := { s.work with n := s.work.n + 1 }
          ctl := .meas .m3a :: rest }) ∧
      (250 ≤ s.work.n → hostAct .hookReturn t = .next { t with stat := s.stat, ctl := .meas .m3d :: rest })

/-- The script line HOOKRET acts while `yield_req` = 1: with a yield pending it ends that yield; while a
command runs and no yield is pending the block moves and the host looks again; on an idle block it does
nothing. That the host waits for the yield, and does not wait for an idle block, is the model's reading of
R104 (log 21). -/
def Obligations.HookretActsWhileAYieldIsPending : Prop :=
  ∀ (s : State) (rest : List Move), s.world.agenda = ScriptLine.hookret.expand ++ rest →
    (s.stat.yieldReq = true →
      Host.Core.run core 2 s = endYield { s with world := { s.world with agenda := rest } }) ∧
    (s.stat.yieldReq = false → s.stat.busy = true →
      step s = .next { s with world := { s.world with agenda := .run :: s.world.agenda } }) ∧
    (s.stat.yieldReq = false → s.stat.busy = false →
      Host.Core.run core 2 s = .next { s with world := { s.world with agenda := rest } })

/-- A hook return while no yield is pending is ignored. -/
def Obligations.HookReturnOutsideAYieldIsIgnored : Prop :=
  ∀ s : State, s.stat.yieldReq = false → hostAct .hookReturn s = .next s

/-- Eight samples shifted in from 0 give the byte whose bits they are in slot order, bit 7 first, and
the levels of a byte in slot order give that byte. -/
def Obligations.SamplesAssembleMostSignificantFirst : Prop :=
  (∀ s7 s6 s5 s4 s3 s2 s1 s0 : Level,
    [s7, s6, s5, s4, s3, s2, s1, s0].foldl shiftIn 0 =
      BitVec.ofBool s7 ++ BitVec.ofBool s6 ++ BitVec.ofBool s5 ++ BitVec.ofBool s4 ++
        BitVec.ofBool s3 ++ BitVec.ofBool s2 ++ BitVec.ofBool s1 ++ BitVec.ofBool s0) ∧
  (∀ v : Byte, (levelsOf v).foldl shiftIn 0 = v) ∧
  ∀ hi lo : Byte, (rawOf hi lo).toNat = 256 * hi.toNat + lo.toNat

/-! ### Checksum and converter -/

/-- The expected checksum is 0x00 for every two bytes with CRC_EN = 0, and CRC8 with CRC_EN = 1; CRC8 has
the check values of R181, whose polynomial is from general knowledge (log 17). -/
def Obligations.ExpectedChecksumFollowsCrcEn : Prop :=
  (∀ hi lo : Byte, expected false hi lo = 0x00 ∧ expected true hi lo = crc8 hi lo) ∧
  crc8 0x00 0x00 = 0x00 ∧ crc8 0x68 0x3A = 0x7C ∧ crc8 0x4E 0x85 = 0x6B ∧ crc8 0xBE 0xEF = 0x13

/-- CRC8 is linear over exclusive-or, as a remainder by a polynomial is, and it tells apart any two pairs
of bytes that differ in one byte only. The polynomial is from general knowledge (log 17). -/
def Obligations.CrcIsLinearAndSeesASingleByteError : Prop :=
  (∀ a b c d : Byte, crc8 (a ^^^ c) (b ^^^ d) = crc8 a b ^^^ crc8 c d) ∧
  (∀ a b d : Byte, b ≠ d → crc8 a b ≠ crc8 a d) ∧ (∀ a b c : Byte, a ≠ c → crc8 a b ≠ crc8 c b)

/-- CVT_T is the source's formula exactly, as rational numbers with denominator 409600; it is negative
exactly up to raw count 4368, and has the values R201 lists; so is CVT_RH before the clamp, with the clamp
of the source, and it has the values R203 lists. -/
def Obligations.ConverterIsTheSourcesFormulaExactly : Prop :=
  cvtT 0 = -19189760 ∧ cvtT 65535 = 268705495 ∧ cvtT 32768 = 124760064 ∧ cvtRh 4096 = 40960000 ∧
  cvtRh 0 = 40960 ∧
  ∀ raw : Raw,
    ((cvtT raw : ℚ) / 409600 = 175.72 / 16384 * raw.toNat - 46.85) ∧
    (cvtT raw < 0 ↔ raw.toNat ≤ 4368) ∧
    ((linRh raw : ℚ) / 409600 = -6 + 125 / 4096 * raw.toNat) ∧
    ((linRh raw : ℚ) / 409600 > 99 → (cvtRh raw : ℚ) / 409600 = 100) ∧
    ((linRh raw : ℚ) / 409600 < 0.1 → (cvtRh raw : ℚ) / 409600 = 0.1) ∧
    (0.1 ≤ (linRh raw : ℚ) / 409600 → (linRh raw : ℚ) / 409600 ≤ 99 → cvtRh raw = linRh raw)

/-- CVT_T grows by 4393 per count and stays in [-19189760, 268705495], inside the signed 32-bit range (the
spec's own inference, R202). -/
def Obligations.TemperatureGrowsBy4393PerCount : Prop :=
  (∀ raw raw' : Raw, raw'.toNat = raw.toNat + 1 → cvtT raw' - cvtT raw = 4393) ∧
  ∀ raw : Raw, -19189760 ≤ cvtT raw ∧ cvtT raw ≤ 268705495 ∧ (tempFx raw).toInt = cvtT raw

/-- The clamp of CVT_RH in terms of the raw count (the spec's own inference, R204). -/
def Obligations.HumidityClampInTermsOfTheRawCount : Prop :=
  ∀ raw : Raw,
    (40550400 < linRh raw ↔ 3441 ≤ raw.toNat) ∧ (linRh raw < 40960 ↔ raw.toNat ≤ 199) ∧
    (raw.toNat ≤ 199 → cvtRh raw = 40960) ∧
    (200 ≤ raw.toNat → raw.toNat ≤ 3440 →
      cvtRh raw = linRh raw ∧ 42400 ≤ cvtRh raw ∧ cvtRh raw ≤ 40542400) ∧
    (3441 ≤ raw.toNat → cvtRh raw = 40960000) ∧
    linRh raw ≠ 40550400 ∧ linRh raw ≠ 40960 ∧ linRh raw ≤ 816729900 ∧
    ¬ (40550400 < cvtRh raw ∧ cvtRh raw < 40960000)

/-- Humidity before the clamp grows by 12500 per count; after it, it is between 0.1 and 100, never
decreases, and is constant on the two clamped ranges; the host reads its value without wrap (the spec's own
inferences, R205 and R206). -/
def Obligations.HumidityIsClampedAndMonotone : Prop :=
  (∀ raw raw' : Raw, raw'.toNat = raw.toNat + 1 → linRh raw' - linRh raw = 12500) ∧
  (∀ raw : Raw, 40960 ≤ cvtRh raw ∧ cvtRh raw ≤ 40960000 ∧ (humiFx raw).toInt = cvtRh raw) ∧
  (∀ raw raw' : Raw, raw.toNat ≤ raw'.toNat → cvtRh raw ≤ cvtRh raw') ∧
  (∀ raw raw' : Raw, raw.toNat ≤ 199 → raw'.toNat ≤ 199 → cvtRh raw = cvtRh raw') ∧
  (∀ raw raw' : Raw, 3441 ≤ raw.toNat → 3441 ≤ raw'.toNat → cvtRh raw = cvtRh raw')

/-! ### Reset -/

/-- The eight window words after reset. -/
def Obligations.ResetWindowWords : Prop :=
  [0, 1, 2, 3, 4, 5, 6, 7].map State.reset.readWord =
    [0x00000200, 0x00000001, 0x00000000, 0x00000000, 0x00000000, 0x00000000, 0xFEDB3000, 0x0000A000]

/-- The line signals, the stack, `op`, `arg`, `wcnt` and `yield_req` after reset. -/
def Obligations.ResetLinesAndSequencer : Prop :=
  State.reset.line = ⟨.low, .released, .low, .released⟩ ∧
  State.reset.ctl = [.wrapper .x2a] ∧ State.reset.work.op = 0x2 ∧ State.reset.work.arg = 0x00 ∧
  State.reset.work.wcnt = 0 ∧ State.reset.stat.yieldReq = false ∧ State.reset.ticks = 0 ∧
  State.reset.pins.rst = false ∧ State.reset.crcEn = false ∧ State.reset.rdata = 0 ∧
  State.reset.temp = 0 ∧ State.reset.humi = 0

/-- From every state just released from reset, whatever ran before it, the automatic bus reset runs by
itself: at tick 168 the line is idle, STAT is 0, the next command is accepted, the line trace is the bus reset
of R99 from tick 0, and every other register holds its reset value. The host does nothing meanwhile: the
agenda is the model's (log 2, DESIGN CHOICE), and the time and the trace begin at the release (log 8). -/
def Obligations.AutomaticBusResetAfterReset : Prop :=
  ∀ s : State, s.alone →
    ∃ k u, Host.Core.run core k { s.resetBlock with pins := { s.pins with rst := false } } = .next u ∧
      u.ready ∧ u.idleLine ∧ u.stat.word = 0x00000000 ∧
      u = { s.resetBlock with
            line := ⟨.low, .driven, .low, .released⟩
            stat := ⟨false, false, .none, false, false, false, false⟩
            work := u.work
            ctl := []
            ticks := 168
            trace := (busResetEvents 0).reverse
            pins := { s.pins with rst := false } }

/-! ### Invariants and whole-machine rules -/

/-- The state after reset is sound, and keeps the timing contract. That the loop counters are in their ranges is
the model's choice: R39 leaves them unspecified (log 6, DESIGN CHOICE). That the trace is empty and the time 0 at
reset is log 8 (DESIGN CHOICE). -/
def Obligations.ResetStateIsSound : Prop := State.reset.TimedInv

/-- Every step from a sound state leads to a sound state: it neither faults nor refuses. The invariant is read
from the listings, as R34 and R38 are (spec inferences), but for what it says while `rst` is 1: the values of the
working registers that R39 leaves unspecified are log 6 (DESIGN CHOICE), the emptied trace and time log 8 (DESIGN
CHOICE), and that no ILL is set and no tick passes under reset is log 9 (DEDUCED). -/
def Obligations.EveryStepKeepsTheInvariant : Prop :=
  ∀ s : State, s.Inv → ∃ t, step s = .next t ∧ t.Inv

/-- Every step keeps the timing contract: each clock-level write stays at least 2 ticks after every
earlier and at least 5 ticks before every later data-line event (the spec's own inference, R129). Across a
reset it holds because `rst` = 1 empties the trace and the time, the model's choice (log 8, DESIGN CHOICE). The
invariant that it carries along holds the values of log 6 (DESIGN CHOICE) under reset, where no ILL is set and no
tick passes (log 9, DEDUCED). -/
def Obligations.EveryStepKeepsTheTimingContract : Prop :=
  ∀ s t : State, s.TimedInv → step s = .next t → t.TimedInv

/-- The idle invariant, the spec's own inference R38: in a sound state with BUSY = 0 the line is idle, no
wait and no yield is in progress, and the next command is accepted. -/
def Obligations.IdleBlockHasAnIdleLine : Prop :=
  ∀ s : State, s.Inv → s.stat.busy = false → s.idleLine ∧ s.ready

/-- The control stack holds at most five frames, and some allowed stack holds five (the spec's own inference,
R34 (g)). -/
def Obligations.StackHoldsAtMostFiveFrames : Prop :=
  (∀ c : List Frame, stackOk c = true → c.length ≤ 5) ∧ ∃ c : List Frame, stackOk c = true ∧ c.length = 5

/-- The block samples the data line only while it has released it (the spec's own inference, R38). -/
def Obligations.SampleOnlyWhileReleased : Prop :=
  ∀ (s t : State) (b : Level), s.Inv → step s = .next t → t.trace = ⟨s.ticks, .sample b⟩ :: s.trace →
    s.line.sdaOe = .released

/-- One step records at most one line event, stamped with the present tick, or lets at most one tick pass,
never both, and takes back nothing (a call, a return or a host access does neither); only driving `rst` to 1
starts the trace and the time again. What one step is, is the model's division (log 4, DEDUCED), and that
`rst` = 1 empties the trace and the time is its choice (log 8, DESIGN CHOICE). A tick passes only in a WAIT, in a
pending yield, or on an idle block. -/
def Obligations.StepRecordsAtMostOneEventOrLetsOneTickPass : Prop :=
  ∀ s t : State, step s = .next t →
    (t.trace = s.trace ∧ t.ticks = s.ticks) ∨
    (t.trace = s.trace ∧ t.ticks = s.ticks + 1 ∧
      (0 < s.work.wcnt ∨ s.stat.yieldReq = true ∨ s.ctl = [])) ∨
    (t.ticks = s.ticks ∧ ∃ op, t.trace = ⟨s.ticks, op⟩ :: s.trace) ∨
    (s.world.agenda.head? = some (.host (.driveRst true)) ∧ t.trace = [] ∧ t.ticks = 0)

/-- TEMP and HUMI are written only by the completion of a successful MEAS, with the raw value of that
measurement into the register of `sel`, and by reset. -/
def Obligations.RawRegistersChangeOnlyOnSuccess : Prop :=
  ∀ s t : State, step s = .next t → (t.temp ≠ s.temp ∨ t.humi ≠ s.humi) →
    (∃ rest raw, s.ctl = .wrapper .x3b :: rest ∧ s.work.res = .success raw ∧
      t.stat.busy = false ∧ t.stat.err = false ∧ t.stat.cause = .none ∧
      ((s.work.arg.getLsbD 0 = false ∧ t.temp = raw ∧ t.stat.tvalid = true ∧ t.humi = s.humi) ∨
        (s.work.arg.getLsbD 0 = true ∧ t.humi = raw ∧ t.stat.hvalid = true ∧ t.temp = s.temp))) ∨
    (s.world.agenda.head? = some (.host (.driveRst true)) ∧ t.temp = 0 ∧ t.humi = 0)

/-- RDATA is written only by the completions of RDBYTE and RDSTAT, with the byte read, and by reset. -/
def Obligations.RdataChangesOnlyWhenAByteWasRead : Prop :=
  ∀ s t : State, step s = .next t → t.rdata ≠ s.rdata →
    (∃ rest, (s.ctl = .wrapper .x4b :: rest ∨ s.ctl = .wrapper .x7b :: rest) ∧
      t.rdata = s.work.r ∧ t.stat.busy = false) ∨
    (s.world.agenda.head? = some (.host (.driveRst true)) ∧ t.rdata = 0)

/-- CRC_EN is written only by a host write to word 2 while BUSY = 0, and by reset. -/
def Obligations.CrcEnChangesOnlyByAnIdleCfgWrite : Prop :=
  ∀ s t : State, step s = .next t → t.crcEn ≠ s.crcEn →
    (∃ v, s.world.agenda.head? = some (.host (.write 2 v)) ∧ s.stat.busy = false ∧
      t.crcEn = v.getLsbD 0) ∨
    (s.world.agenda.head? = some (.host (.driveRst true)) ∧ t.crcEn = false)

/-- BUSY falls, and ERR or CAUSE change, only in a completion, which empties the stack; and the VALID
flags are cleared by reset only. -/
def Obligations.ResultFlagsChangeOnlyAtCompletion : Prop :=
  ∀ s t : State, step s = .next t → s.world.agenda.head? ≠ some (.host (.driveRst true)) →
    ((s.stat.busy = true ∧ t.stat.busy = false) ∨ t.stat.err ≠ s.stat.err ∨ t.stat.cause ≠ s.stat.cause →
      t.ctl = [] ∧ t.stat.busy = false ∧ ∃ x rest, s.ctl = .wrapper x :: rest) ∧
    (s.stat.tvalid = true → t.stat.tvalid = true) ∧ (s.stat.hvalid = true → t.stat.hvalid = true)

/-- CMD is written only by the acceptance of the command whose word it takes, and by reset. -/
def Obligations.CmdChangesOnlyAtAcceptance : Prop :=
  ∀ s t : State, step s = .next t → t.cmd ≠ s.cmd →
    (∃ w, s.world.agenda.head? = some (.host (.write 0 w)) ∧ s.stat.busy = false ∧
      (fieldsOf w).legal = true ∧ t.cmd = w ∧ t.stat.busy = true ∧ t.stat.ill = false) ∨
    (s.world.agenda.head? = some (.host (.driveRst true)) ∧ t.cmd = 0x00000200)

/-- The clock pin, once an output, stays one until reset (the spec's own inference, R38). -/
def Obligations.ClockStaysDrivenUntilReset : Prop :=
  ∀ s t : State, step s = .next t → s.line.sckOe = .driven →
    s.world.agenda.head? ≠ some (.host (.driveRst true)) → t.line.sckOe = .driven
end

