-- ==== Sys2Proof/Laws/Config.lean ====
section
/-! SUPPORT. What is known of T_TICK, and that nothing else is (R6, D2). -/

namespace Sys2Proof.Config

/-- A duration that a pair stands for is positive. -/
theorem tickOfPair_pos (p : Nat × Nat) : 0 < tickOfPair p := by
  unfold tickOfPair
  positivity

/-- Five durations that a pair stands for are less than a millisecond. -/
theorem five_tickOfPair_lt (p : Nat × Nat) : 5 * tickOfPair p < 1 := by
  unfold tickOfPair
  have hq : (0 : ℚ) ≤ p.2 := Nat.cast_nonneg _
  have hp : (0 : ℚ) ≤ p.1 := Nat.cast_nonneg _
  rw [mul_div_assoc', div_lt_one (by positivity)]
  linarith

/-- Every rational duration that R6 admits is the duration of some pair: the form excludes none. -/
theorem tickOfPair_covers {d : ℚ} (hd : 0 < d) (h5 : 5 * d < 1) : ∃ p, tickOfPair p = d := by
  have hn : 0 < d.num := Rat.num_pos.mpr hd
  obtain ⟨n, hn'⟩ := Int.eq_ofNat_of_zero_le hn.le
  have hden : (0 : ℚ) < d.den := by exact_mod_cast d.den_pos
  have hdn : d = n / d.den := by
    conv_lhs => rw [← Rat.num_div_den d, hn']
    simp
  have hlt : 5 * n < d.den := by
    have : 5 * (n : ℚ) < d.den := by
      rw [hdn, mul_div_assoc', div_lt_one hden] at h5
      exact h5
    exact_mod_cast this
  have hpos : 0 < n := by omega
  refine ⟨(5 * n - 1, d.den - 5 * n - 1), ?_⟩
  have h1 : (((5 * n - 1 : Nat) : ℚ)) + 1 = 5 * n := by
    have : 5 * n - 1 + 1 = 5 * n := by omega
    exact_mod_cast this
  have h2 : (((d.den - 5 * n - 1 : Nat) : ℚ)) + 1 = d.den - 5 * n := by
    rw [eq_sub_iff_add_eq]
    have : d.den - 5 * n - 1 + 1 + 5 * n = d.den := by omega
    exact_mod_cast this
  simp only [tickOfPair]
  rw [h1, h2]
  conv_rhs => rw [hdn]
  rw [add_sub_cancel, mul_div_mul_left _ _ (by norm_num)]

/-- T_TICK is positive (D2). -/
theorem tickDuration_pos : 0 < tickDuration := tickOfPair_pos _

/-- The micro-delays are sub-millisecond: 5 * T_TICK is less than 1 ms (R6, D2). -/
theorem five_tickDuration_lt : 5 * tickDuration < 1 := five_tickOfPair_lt _

end Sys2Proof.Config
end

