-- ==== Sys2Proof/Laws/State.lean ====
section
/-! SUPPORT. One lemma per field and per update of the state, true by unfolding the update once. -/

namespace Sys2Proof.Machine

variable (s : State)

/-! #### tick -/

@[simp] theorem State.tick_line : (s.tick).line = s.line := rfl
@[simp] theorem State.tick_temp : (s.tick).temp = s.temp := rfl
@[simp] theorem State.tick_humi : (s.tick).humi = s.humi := rfl
@[simp] theorem State.tick_cmd : (s.tick).cmd = s.cmd := rfl
@[simp] theorem State.tick_stat : (s.tick).stat = s.stat := rfl
@[simp] theorem State.tick_crcEn : (s.tick).crcEn = s.crcEn := rfl
@[simp] theorem State.tick_rdata : (s.tick).rdata = s.rdata := rfl
@[simp] theorem State.tick_work : (s.tick).work = s.work := rfl
@[simp] theorem State.tick_ctl : (s.tick).ctl = s.ctl := rfl
@[simp] theorem State.tick_ticks : (s.tick).ticks = s.ticks + 1 := rfl
@[simp] theorem State.tick_trace : (s.tick).trace = s.trace := rfl
@[simp] theorem State.tick_pins : (s.tick).pins = s.pins := rfl
@[simp] theorem State.tick_world : (s.tick).world = s.world := rfl

/-! #### record -/

@[simp] theorem State.record_line (op : LineOp) : (s.record op).line = s.line := rfl
@[simp] theorem State.record_temp (op : LineOp) : (s.record op).temp = s.temp := rfl
@[simp] theorem State.record_humi (op : LineOp) : (s.record op).humi = s.humi := rfl
@[simp] theorem State.record_cmd (op : LineOp) : (s.record op).cmd = s.cmd := rfl
@[simp] theorem State.record_stat (op : LineOp) : (s.record op).stat = s.stat := rfl
@[simp] theorem State.record_crcEn (op : LineOp) : (s.record op).crcEn = s.crcEn := rfl
@[simp] theorem State.record_rdata (op : LineOp) : (s.record op).rdata = s.rdata := rfl
@[simp] theorem State.record_work (op : LineOp) : (s.record op).work = s.work := rfl
@[simp] theorem State.record_ctl (op : LineOp) : (s.record op).ctl = s.ctl := rfl
@[simp] theorem State.record_ticks (op : LineOp) : (s.record op).ticks = s.ticks := rfl
@[simp] theorem State.record_trace (op : LineOp) : (s.record op).trace = ⟨s.ticks, op⟩ :: s.trace := rfl
@[simp] theorem State.record_pins (op : LineOp) : (s.record op).pins = s.pins := rfl
@[simp] theorem State.record_world (op : LineOp) : (s.record op).world = s.world := rfl

/-! #### sck -/

@[simp] theorem State.sck_line (l : Level) : (s.sck l).line = { s.line with sckO := l } := rfl
@[simp] theorem State.sck_temp (l : Level) : (s.sck l).temp = s.temp := rfl
@[simp] theorem State.sck_humi (l : Level) : (s.sck l).humi = s.humi := rfl
@[simp] theorem State.sck_cmd (l : Level) : (s.sck l).cmd = s.cmd := rfl
@[simp] theorem State.sck_stat (l : Level) : (s.sck l).stat = s.stat := rfl
@[simp] theorem State.sck_crcEn (l : Level) : (s.sck l).crcEn = s.crcEn := rfl
@[simp] theorem State.sck_rdata (l : Level) : (s.sck l).rdata = s.rdata := rfl
@[simp] theorem State.sck_work (l : Level) : (s.sck l).work = s.work := rfl
@[simp] theorem State.sck_ctl (l : Level) : (s.sck l).ctl = s.ctl := rfl
@[simp] theorem State.sck_ticks (l : Level) : (s.sck l).ticks = s.ticks := rfl
@[simp] theorem State.sck_trace (l : Level) : (s.sck l).trace = ⟨s.ticks, .sck l⟩ :: s.trace := rfl
@[simp] theorem State.sck_pins (l : Level) : (s.sck l).pins = s.pins := rfl
@[simp] theorem State.sck_world (l : Level) : (s.sck l).world = s.world := rfl

/-! #### sckDir -/

@[simp] theorem State.sckDir_line (d : Dir) : (s.sckDir d).line = { s.line with sckOe := d } := rfl
@[simp] theorem State.sckDir_temp (d : Dir) : (s.sckDir d).temp = s.temp := rfl
@[simp] theorem State.sckDir_humi (d : Dir) : (s.sckDir d).humi = s.humi := rfl
@[simp] theorem State.sckDir_cmd (d : Dir) : (s.sckDir d).cmd = s.cmd := rfl
@[simp] theorem State.sckDir_stat (d : Dir) : (s.sckDir d).stat = s.stat := rfl
@[simp] theorem State.sckDir_crcEn (d : Dir) : (s.sckDir d).crcEn = s.crcEn := rfl
@[simp] theorem State.sckDir_rdata (d : Dir) : (s.sckDir d).rdata = s.rdata := rfl
@[simp] theorem State.sckDir_work (d : Dir) : (s.sckDir d).work = s.work := rfl
@[simp] theorem State.sckDir_ctl (d : Dir) : (s.sckDir d).ctl = s.ctl := rfl
@[simp] theorem State.sckDir_ticks (d : Dir) : (s.sckDir d).ticks = s.ticks := rfl
@[simp] theorem State.sckDir_trace (d : Dir) : (s.sckDir d).trace = ⟨s.ticks, .sckDir d⟩ :: s.trace := rfl
@[simp] theorem State.sckDir_pins (d : Dir) : (s.sckDir d).pins = s.pins := rfl
@[simp] theorem State.sckDir_world (d : Dir) : (s.sckDir d).world = s.world := rfl

/-! #### sda -/

@[simp] theorem State.sda_line (l : Level) : (s.sda l).line = { s.line with sdaO := l } := rfl
@[simp] theorem State.sda_temp (l : Level) : (s.sda l).temp = s.temp := rfl
@[simp] theorem State.sda_humi (l : Level) : (s.sda l).humi = s.humi := rfl
@[simp] theorem State.sda_cmd (l : Level) : (s.sda l).cmd = s.cmd := rfl
@[simp] theorem State.sda_stat (l : Level) : (s.sda l).stat = s.stat := rfl
@[simp] theorem State.sda_crcEn (l : Level) : (s.sda l).crcEn = s.crcEn := rfl
@[simp] theorem State.sda_rdata (l : Level) : (s.sda l).rdata = s.rdata := rfl
@[simp] theorem State.sda_work (l : Level) : (s.sda l).work = s.work := rfl
@[simp] theorem State.sda_ctl (l : Level) : (s.sda l).ctl = s.ctl := rfl
@[simp] theorem State.sda_ticks (l : Level) : (s.sda l).ticks = s.ticks := rfl
@[simp] theorem State.sda_trace (l : Level) : (s.sda l).trace = ⟨s.ticks, .sda l⟩ :: s.trace := rfl
@[simp] theorem State.sda_pins (l : Level) : (s.sda l).pins = s.pins := rfl
@[simp] theorem State.sda_world (l : Level) : (s.sda l).world = s.world := rfl

/-! #### sdaDir -/

@[simp] theorem State.sdaDir_line (d : Dir) : (s.sdaDir d).line = { s.line with sdaOe := d } := rfl
@[simp] theorem State.sdaDir_temp (d : Dir) : (s.sdaDir d).temp = s.temp := rfl
@[simp] theorem State.sdaDir_humi (d : Dir) : (s.sdaDir d).humi = s.humi := rfl
@[simp] theorem State.sdaDir_cmd (d : Dir) : (s.sdaDir d).cmd = s.cmd := rfl
@[simp] theorem State.sdaDir_stat (d : Dir) : (s.sdaDir d).stat = s.stat := rfl
@[simp] theorem State.sdaDir_crcEn (d : Dir) : (s.sdaDir d).crcEn = s.crcEn := rfl
@[simp] theorem State.sdaDir_rdata (d : Dir) : (s.sdaDir d).rdata = s.rdata := rfl
@[simp] theorem State.sdaDir_work (d : Dir) : (s.sdaDir d).work = s.work := rfl
@[simp] theorem State.sdaDir_ctl (d : Dir) : (s.sdaDir d).ctl = s.ctl := rfl
@[simp] theorem State.sdaDir_ticks (d : Dir) : (s.sdaDir d).ticks = s.ticks := rfl
@[simp] theorem State.sdaDir_trace (d : Dir) : (s.sdaDir d).trace = ⟨s.ticks, .sdaDir d⟩ :: s.trace := rfl
@[simp] theorem State.sdaDir_pins (d : Dir) : (s.sdaDir d).pins = s.pins := rfl
@[simp] theorem State.sdaDir_world (d : Dir) : (s.sdaDir d).world = s.world := rfl

/-! #### sampled -/

@[simp] theorem State.sampled_line : (s.sampled).line = s.line := rfl
@[simp] theorem State.sampled_temp : (s.sampled).temp = s.temp := rfl
@[simp] theorem State.sampled_humi : (s.sampled).humi = s.humi := rfl
@[simp] theorem State.sampled_cmd : (s.sampled).cmd = s.cmd := rfl
@[simp] theorem State.sampled_stat : (s.sampled).stat = s.stat := rfl
@[simp] theorem State.sampled_crcEn : (s.sampled).crcEn = s.crcEn := rfl
@[simp] theorem State.sampled_rdata : (s.sampled).rdata = s.rdata := rfl
@[simp] theorem State.sampled_work : (s.sampled).work = s.work := rfl
@[simp] theorem State.sampled_ctl : (s.sampled).ctl = s.ctl := rfl
@[simp] theorem State.sampled_ticks : (s.sampled).ticks = s.ticks := rfl
@[simp] theorem State.sampled_trace : (s.sampled).trace = ⟨s.ticks, .sample s.answer⟩ :: s.trace := rfl
@[simp] theorem State.sampled_pins : (s.sampled).pins = s.pins := rfl
@[simp] theorem State.sampled_world : (s.sampled).world = { s.world with answers := s.world.answers.tail, draws := s.world.draws + 1 } := rfl

/-! #### goto -/

@[simp] theorem State.goto_line (f : Frame) (rest : List Frame) : (s.goto f rest).line = s.line := rfl
@[simp] theorem State.goto_temp (f : Frame) (rest : List Frame) : (s.goto f rest).temp = s.temp := rfl
@[simp] theorem State.goto_humi (f : Frame) (rest : List Frame) : (s.goto f rest).humi = s.humi := rfl
@[simp] theorem State.goto_cmd (f : Frame) (rest : List Frame) : (s.goto f rest).cmd = s.cmd := rfl
@[simp] theorem State.goto_stat (f : Frame) (rest : List Frame) : (s.goto f rest).stat = s.stat := rfl
@[simp] theorem State.goto_crcEn (f : Frame) (rest : List Frame) : (s.goto f rest).crcEn = s.crcEn := rfl
@[simp] theorem State.goto_rdata (f : Frame) (rest : List Frame) : (s.goto f rest).rdata = s.rdata := rfl
@[simp] theorem State.goto_work (f : Frame) (rest : List Frame) : (s.goto f rest).work = s.work := rfl
@[simp] theorem State.goto_ctl (f : Frame) (rest : List Frame) : (s.goto f rest).ctl = f :: rest := rfl
@[simp] theorem State.goto_ticks (f : Frame) (rest : List Frame) : (s.goto f rest).ticks = s.ticks := rfl
@[simp] theorem State.goto_trace (f : Frame) (rest : List Frame) : (s.goto f rest).trace = s.trace := rfl
@[simp] theorem State.goto_pins (f : Frame) (rest : List Frame) : (s.goto f rest).pins = s.pins := rfl
@[simp] theorem State.goto_world (f : Frame) (rest : List Frame) : (s.goto f rest).world = s.world := rfl

/-! #### callPulse -/

@[simp] theorem State.callPulse_line (l : Level) : (s.callPulse l).line = s.line := rfl
@[simp] theorem State.callPulse_temp (l : Level) : (s.callPulse l).temp = s.temp := rfl
@[simp] theorem State.callPulse_humi (l : Level) : (s.callPulse l).humi = s.humi := rfl
@[simp] theorem State.callPulse_cmd (l : Level) : (s.callPulse l).cmd = s.cmd := rfl
@[simp] theorem State.callPulse_stat (l : Level) : (s.callPulse l).stat = s.stat := rfl
@[simp] theorem State.callPulse_crcEn (l : Level) : (s.callPulse l).crcEn = s.crcEn := rfl
@[simp] theorem State.callPulse_rdata (l : Level) : (s.callPulse l).rdata = s.rdata := rfl
@[simp] theorem State.callPulse_work (l : Level) : (s.callPulse l).work = { s.work with l := l } := rfl
@[simp] theorem State.callPulse_ctl (l : Level) : (s.callPulse l).ctl = .pulse .p1 :: s.ctl := rfl
@[simp] theorem State.callPulse_ticks (l : Level) : (s.callPulse l).ticks = s.ticks := rfl
@[simp] theorem State.callPulse_trace (l : Level) : (s.callPulse l).trace = s.trace := rfl
@[simp] theorem State.callPulse_pins (l : Level) : (s.callPulse l).pins = s.pins := rfl
@[simp] theorem State.callPulse_world (l : Level) : (s.callPulse l).world = s.world := rfl

/-! #### callRelease -/

@[simp] theorem State.callRelease_line : (s.callRelease).line = s.line := rfl
@[simp] theorem State.callRelease_temp : (s.callRelease).temp = s.temp := rfl
@[simp] theorem State.callRelease_humi : (s.callRelease).humi = s.humi := rfl
@[simp] theorem State.callRelease_cmd : (s.callRelease).cmd = s.cmd := rfl
@[simp] theorem State.callRelease_stat : (s.callRelease).stat = s.stat := rfl
@[simp] theorem State.callRelease_crcEn : (s.callRelease).crcEn = s.crcEn := rfl
@[simp] theorem State.callRelease_rdata : (s.callRelease).rdata = s.rdata := rfl
@[simp] theorem State.callRelease_work : (s.callRelease).work = s.work := rfl
@[simp] theorem State.callRelease_ctl : (s.callRelease).ctl = .release :: s.ctl := rfl
@[simp] theorem State.callRelease_ticks : (s.callRelease).ticks = s.ticks := rfl
@[simp] theorem State.callRelease_trace : (s.callRelease).trace = s.trace := rfl
@[simp] theorem State.callRelease_pins : (s.callRelease).pins = s.pins := rfl
@[simp] theorem State.callRelease_world : (s.callRelease).world = s.world := rfl

/-! #### callWrbyte -/

@[simp] theorem State.callWrbyte_line (v : Byte) : (s.callWrbyte v).line = s.line := rfl
@[simp] theorem State.callWrbyte_temp (v : Byte) : (s.callWrbyte v).temp = s.temp := rfl
@[simp] theorem State.callWrbyte_humi (v : Byte) : (s.callWrbyte v).humi = s.humi := rfl
@[simp] theorem State.callWrbyte_cmd (v : Byte) : (s.callWrbyte v).cmd = s.cmd := rfl
@[simp] theorem State.callWrbyte_stat (v : Byte) : (s.callWrbyte v).stat = s.stat := rfl
@[simp] theorem State.callWrbyte_crcEn (v : Byte) : (s.callWrbyte v).crcEn = s.crcEn := rfl
@[simp] theorem State.callWrbyte_rdata (v : Byte) : (s.callWrbyte v).rdata = s.rdata := rfl
@[simp] theorem State.callWrbyte_work (v : Byte) : (s.callWrbyte v).work = { s.work with v := v } := rfl
@[simp] theorem State.callWrbyte_ctl (v : Byte) : (s.callWrbyte v).ctl = .wrbyte .w1 :: s.ctl := rfl
@[simp] theorem State.callWrbyte_ticks (v : Byte) : (s.callWrbyte v).ticks = s.ticks := rfl
@[simp] theorem State.callWrbyte_trace (v : Byte) : (s.callWrbyte v).trace = s.trace := rfl
@[simp] theorem State.callWrbyte_pins (v : Byte) : (s.callWrbyte v).pins = s.pins := rfl
@[simp] theorem State.callWrbyte_world (v : Byte) : (s.callWrbyte v).world = s.world := rfl

/-! #### callRdbyte -/

@[simp] theorem State.callRdbyte_line (a : Level) : (s.callRdbyte a).line = s.line := rfl
@[simp] theorem State.callRdbyte_temp (a : Level) : (s.callRdbyte a).temp = s.temp := rfl
@[simp] theorem State.callRdbyte_humi (a : Level) : (s.callRdbyte a).humi = s.humi := rfl
@[simp] theorem State.callRdbyte_cmd (a : Level) : (s.callRdbyte a).cmd = s.cmd := rfl
@[simp] theorem State.callRdbyte_stat (a : Level) : (s.callRdbyte a).stat = s.stat := rfl
@[simp] theorem State.callRdbyte_crcEn (a : Level) : (s.callRdbyte a).crcEn = s.crcEn := rfl
@[simp] theorem State.callRdbyte_rdata (a : Level) : (s.callRdbyte a).rdata = s.rdata := rfl
@[simp] theorem State.callRdbyte_work (a : Level) : (s.callRdbyte a).work = { s.work with a := a } := rfl
@[simp] theorem State.callRdbyte_ctl (a : Level) : (s.callRdbyte a).ctl = .rdbyte .b1 :: s.ctl := rfl
@[simp] theorem State.callRdbyte_ticks (a : Level) : (s.callRdbyte a).ticks = s.ticks := rfl
@[simp] theorem State.callRdbyte_trace (a : Level) : (s.callRdbyte a).trace = s.trace := rfl
@[simp] theorem State.callRdbyte_pins (a : Level) : (s.callRdbyte a).pins = s.pins := rfl
@[simp] theorem State.callRdbyte_world (a : Level) : (s.callRdbyte a).world = s.world := rfl

/-! #### callProc -/

@[simp] theorem State.callProc_line (f : Frame) : (s.callProc f).line = s.line := rfl
@[simp] theorem State.callProc_temp (f : Frame) : (s.callProc f).temp = s.temp := rfl
@[simp] theorem State.callProc_humi (f : Frame) : (s.callProc f).humi = s.humi := rfl
@[simp] theorem State.callProc_cmd (f : Frame) : (s.callProc f).cmd = s.cmd := rfl
@[simp] theorem State.callProc_stat (f : Frame) : (s.callProc f).stat = s.stat := rfl
@[simp] theorem State.callProc_crcEn (f : Frame) : (s.callProc f).crcEn = s.crcEn := rfl
@[simp] theorem State.callProc_rdata (f : Frame) : (s.callProc f).rdata = s.rdata := rfl
@[simp] theorem State.callProc_work (f : Frame) : (s.callProc f).work = s.work := rfl
@[simp] theorem State.callProc_ctl (f : Frame) : (s.callProc f).ctl = f :: s.ctl := rfl
@[simp] theorem State.callProc_ticks (f : Frame) : (s.callProc f).ticks = s.ticks := rfl
@[simp] theorem State.callProc_trace (f : Frame) : (s.callProc f).trace = s.trace := rfl
@[simp] theorem State.callProc_pins (f : Frame) : (s.callProc f).pins = s.pins := rfl
@[simp] theorem State.callProc_world (f : Frame) : (s.callProc f).world = s.world := rfl

/-! #### accept -/

@[simp] theorem State.accept_line (i : Instr) (x : WrapAt) : (s.accept i x).line = s.line := rfl
@[simp] theorem State.accept_temp (i : Instr) (x : WrapAt) : (s.accept i x).temp = s.temp := rfl
@[simp] theorem State.accept_humi (i : Instr) (x : WrapAt) : (s.accept i x).humi = s.humi := rfl
@[simp] theorem State.accept_cmd (i : Instr) (x : WrapAt) : (s.accept i x).cmd = encode i := rfl
@[simp] theorem State.accept_stat (i : Instr) (x : WrapAt) : (s.accept i x).stat = { s.stat with busy := true, ill := false } := rfl
@[simp] theorem State.accept_crcEn (i : Instr) (x : WrapAt) : (s.accept i x).crcEn = s.crcEn := rfl
@[simp] theorem State.accept_rdata (i : Instr) (x : WrapAt) : (s.accept i x).rdata = s.rdata := rfl
@[simp] theorem State.accept_work (i : Instr) (x : WrapAt) : (s.accept i x).work = { s.work with op := (fieldsOf (encode i)).op, arg := (fieldsOf (encode i)).arg } := rfl
@[simp] theorem State.accept_ctl (i : Instr) (x : WrapAt) : (s.accept i x).ctl = [.wrapper x] := rfl
@[simp] theorem State.accept_ticks (i : Instr) (x : WrapAt) : (s.accept i x).ticks = s.ticks := rfl
@[simp] theorem State.accept_trace (i : Instr) (x : WrapAt) : (s.accept i x).trace = s.trace := rfl
@[simp] theorem State.accept_pins (i : Instr) (x : WrapAt) : (s.accept i x).pins = s.pins := rfl
@[simp] theorem State.accept_world (i : Instr) (x : WrapAt) : (s.accept i x).world = s.world := rfl

/-! #### done -/

@[simp] theorem State.done_line (err : Bool) (c : Cause) : (s.done err c).line = s.line := rfl
@[simp] theorem State.done_temp (err : Bool) (c : Cause) : (s.done err c).temp = s.temp := rfl
@[simp] theorem State.done_humi (err : Bool) (c : Cause) : (s.done err c).humi = s.humi := rfl
@[simp] theorem State.done_cmd (err : Bool) (c : Cause) : (s.done err c).cmd = s.cmd := rfl
@[simp] theorem State.done_stat (err : Bool) (c : Cause) : (s.done err c).stat = { s.stat with busy := false, err := err, cause := c } := rfl
@[simp] theorem State.done_crcEn (err : Bool) (c : Cause) : (s.done err c).crcEn = s.crcEn := rfl
@[simp] theorem State.done_rdata (err : Bool) (c : Cause) : (s.done err c).rdata = s.rdata := rfl
@[simp] theorem State.done_work (err : Bool) (c : Cause) : (s.done err c).work = s.work := rfl
@[simp] theorem State.done_ctl (err : Bool) (c : Cause) : (s.done err c).ctl = [] := rfl
@[simp] theorem State.done_ticks (err : Bool) (c : Cause) : (s.done err c).ticks = s.ticks := rfl
@[simp] theorem State.done_trace (err : Bool) (c : Cause) : (s.done err c).trace = s.trace := rfl
@[simp] theorem State.done_pins (err : Bool) (c : Cause) : (s.done err c).pins = s.pins := rfl
@[simp] theorem State.done_world (err : Bool) (c : Cause) : (s.done err c).world = s.world := rfl

/-! #### setRdata -/

@[simp] theorem State.setRdata_line (b : Byte) : (s.setRdata b).line = s.line := rfl
@[simp] theorem State.setRdata_temp (b : Byte) : (s.setRdata b).temp = s.temp := rfl
@[simp] theorem State.setRdata_humi (b : Byte) : (s.setRdata b).humi = s.humi := rfl
@[simp] theorem State.setRdata_cmd (b : Byte) : (s.setRdata b).cmd = s.cmd := rfl
@[simp] theorem State.setRdata_stat (b : Byte) : (s.setRdata b).stat = s.stat := rfl
@[simp] theorem State.setRdata_crcEn (b : Byte) : (s.setRdata b).crcEn = s.crcEn := rfl
@[simp] theorem State.setRdata_rdata (b : Byte) : (s.setRdata b).rdata = b := rfl
@[simp] theorem State.setRdata_work (b : Byte) : (s.setRdata b).work = s.work := rfl
@[simp] theorem State.setRdata_ctl (b : Byte) : (s.setRdata b).ctl = s.ctl := rfl
@[simp] theorem State.setRdata_ticks (b : Byte) : (s.setRdata b).ticks = s.ticks := rfl
@[simp] theorem State.setRdata_trace (b : Byte) : (s.setRdata b).trace = s.trace := rfl
@[simp] theorem State.setRdata_pins (b : Byte) : (s.setRdata b).pins = s.pins := rfl
@[simp] theorem State.setRdata_world (b : Byte) : (s.setRdata b).world = s.world := rfl

/-! #### hostRead -/

@[simp] theorem State.hostRead_line (a : Addr) : (s.hostRead a).line = s.line := rfl
@[simp] theorem State.hostRead_temp (a : Addr) : (s.hostRead a).temp = s.temp := rfl
@[simp] theorem State.hostRead_humi (a : Addr) : (s.hostRead a).humi = s.humi := rfl
@[simp] theorem State.hostRead_cmd (a : Addr) : (s.hostRead a).cmd = s.cmd := rfl
@[simp] theorem State.hostRead_stat (a : Addr) : (s.hostRead a).stat = s.stat := rfl
@[simp] theorem State.hostRead_crcEn (a : Addr) : (s.hostRead a).crcEn = s.crcEn := rfl
@[simp] theorem State.hostRead_rdata (a : Addr) : (s.hostRead a).rdata = s.rdata := rfl
@[simp] theorem State.hostRead_work (a : Addr) : (s.hostRead a).work = s.work := rfl
@[simp] theorem State.hostRead_ctl (a : Addr) : (s.hostRead a).ctl = s.ctl := rfl
@[simp] theorem State.hostRead_ticks (a : Addr) : (s.hostRead a).ticks = s.ticks := rfl
@[simp] theorem State.hostRead_trace (a : Addr) : (s.hostRead a).trace = s.trace := rfl
@[simp] theorem State.hostRead_pins (a : Addr) : (s.hostRead a).pins = s.pins := rfl
@[simp] theorem State.hostRead_world (a : Addr) : (s.hostRead a).world = { s.world with readLog := (a, s.readWord a) :: s.world.readLog } := rfl

/-! #### taken -/

@[simp] theorem State.taken_line (rest : List Move) : (s.taken rest).line = s.line := rfl
@[simp] theorem State.taken_temp (rest : List Move) : (s.taken rest).temp = s.temp := rfl
@[simp] theorem State.taken_humi (rest : List Move) : (s.taken rest).humi = s.humi := rfl
@[simp] theorem State.taken_cmd (rest : List Move) : (s.taken rest).cmd = s.cmd := rfl
@[simp] theorem State.taken_stat (rest : List Move) : (s.taken rest).stat = s.stat := rfl
@[simp] theorem State.taken_crcEn (rest : List Move) : (s.taken rest).crcEn = s.crcEn := rfl
@[simp] theorem State.taken_rdata (rest : List Move) : (s.taken rest).rdata = s.rdata := rfl
@[simp] theorem State.taken_work (rest : List Move) : (s.taken rest).work = s.work := rfl
@[simp] theorem State.taken_ctl (rest : List Move) : (s.taken rest).ctl = s.ctl := rfl
@[simp] theorem State.taken_ticks (rest : List Move) : (s.taken rest).ticks = s.ticks := rfl
@[simp] theorem State.taken_trace (rest : List Move) : (s.taken rest).trace = s.trace := rfl
@[simp] theorem State.taken_pins (rest : List Move) : (s.taken rest).pins = s.pins := rfl
@[simp] theorem State.taken_world (rest : List Move) : (s.taken rest).world = { s.world with agenda := rest } := rfl

/-! #### driveAck -/

@[simp] theorem State.driveAck_line (l : Bool) : (s.driveAck l).line = s.line := rfl
@[simp] theorem State.driveAck_temp (l : Bool) : (s.driveAck l).temp = s.temp := rfl
@[simp] theorem State.driveAck_humi (l : Bool) : (s.driveAck l).humi = s.humi := rfl
@[simp] theorem State.driveAck_cmd (l : Bool) : (s.driveAck l).cmd = s.cmd := rfl
@[simp] theorem State.driveAck_stat (l : Bool) : (s.driveAck l).stat = s.stat := rfl
@[simp] theorem State.driveAck_crcEn (l : Bool) : (s.driveAck l).crcEn = s.crcEn := rfl
@[simp] theorem State.driveAck_rdata (l : Bool) : (s.driveAck l).rdata = s.rdata := rfl
@[simp] theorem State.driveAck_work (l : Bool) : (s.driveAck l).work = s.work := rfl
@[simp] theorem State.driveAck_ctl (l : Bool) : (s.driveAck l).ctl = s.ctl := rfl
@[simp] theorem State.driveAck_ticks (l : Bool) : (s.driveAck l).ticks = s.ticks := rfl
@[simp] theorem State.driveAck_trace (l : Bool) : (s.driveAck l).trace = s.trace := rfl
@[simp] theorem State.driveAck_pins (l : Bool) : (s.driveAck l).pins = { s.pins with yieldAck := l } := rfl
@[simp] theorem State.driveAck_world (l : Bool) : (s.driveAck l).world = s.world := rfl

/-! #### releaseRst -/

@[simp] theorem State.releaseRst_line : (s.releaseRst).line = s.line := rfl
@[simp] theorem State.releaseRst_temp : (s.releaseRst).temp = s.temp := rfl
@[simp] theorem State.releaseRst_humi : (s.releaseRst).humi = s.humi := rfl
@[simp] theorem State.releaseRst_cmd : (s.releaseRst).cmd = s.cmd := rfl
@[simp] theorem State.releaseRst_stat : (s.releaseRst).stat = s.stat := rfl
@[simp] theorem State.releaseRst_crcEn : (s.releaseRst).crcEn = s.crcEn := rfl
@[simp] theorem State.releaseRst_rdata : (s.releaseRst).rdata = s.rdata := rfl
@[simp] theorem State.releaseRst_work : (s.releaseRst).work = s.work := rfl
@[simp] theorem State.releaseRst_ctl : (s.releaseRst).ctl = s.ctl := rfl
@[simp] theorem State.releaseRst_ticks : (s.releaseRst).ticks = s.ticks := rfl
@[simp] theorem State.releaseRst_trace : (s.releaseRst).trace = s.trace := rfl
@[simp] theorem State.releaseRst_pins : (s.releaseRst).pins = { s.pins with rst := false } := rfl
@[simp] theorem State.releaseRst_world : (s.releaseRst).world = s.world := rfl

end Sys2Proof.Machine
end

