-- ==== Sys2Proof/Laws/Control.lean ====
section
/-! SUPPORT. What the shared operations of the control stack and of the sequencer can do, said once each. -/

namespace Sys2Proof.Machine

/-- A record of working registers that agrees with another but for the counters and the results that a
return stores. -/
def Work.returnsFrom (w' w : Work) : Prop :=
  w' = { w with i := w'.i, k := w'.k, n := w'.n, hi := w'.hi, lo := w'.lo, ck := w'.ck,
                e1 := w'.e1, e2 := w'.e2 }

theorem Work.returnsFrom_refl (w : Work) : w.returnsFrom w := rfl

/-- What a move along the control stack leaves behind: a non-empty stack, working registers changed by
returns and loop counters only, and everything else as it was. -/
def State.movedOn (t s : State) : Prop :=
  ∃ f rest, t = { s with work := t.work, ctl := f :: rest } ∧ t.work.returnsFrom s.work

theorem goOn_next {f : Frame} {rest : List Frame} {s t : State} (h : goOn f rest s = .next t) :
    t = { s with ctl := f :: rest } := by
  simp only [goOn, Host.Outcome.next.injEq] at h
  exact h.symm

theorem goOn_movedOn {f : Frame} {rest : List Frame} {s t : State} (h : goOn f rest s = .next t) :
    t.movedOn s := by
  obtain rfl := goOn_next h
  exact ⟨f, rest, rfl, rfl⟩

theorem loopW2_movedOn {rest : List Frame} {s t : State} (h : loopW2 rest s = .next t) :
    t.movedOn s := by
  unfold loopW2 at h
  split at h <;> obtain rfl := goOn_next h <;> exact ⟨_, _, rfl, rfl⟩

theorem loopB2_movedOn {rest : List Frame} {s t : State} (h : loopB2 rest s = .next t) :
    t.movedOn s := by
  unfold loopB2 at h
  split at h <;> obtain rfl := goOn_next h <;> exact ⟨_, _, rfl, rfl⟩

theorem loopQ3_movedOn {rest : List Frame} {s t : State} (h : loopQ3 rest s = .next t) :
    t.movedOn s := by
  unfold loopQ3 at h
  split at h <;> obtain rfl := goOn_next h <;> exact ⟨_, _, rfl, rfl⟩

theorem loopM3_movedOn {rest : List Frame} {s t : State} (h : loopM3 rest s = .next t) :
    t.movedOn s := by
  unfold loopM3 at h
  split at h <;> obtain rfl := goOn_next h <;> exact ⟨_, _, rfl, rfl⟩

/-- What a return can do. -/
theorem finish_movedOn {s t : State} : ∀ {c : List Frame}, finish s c = .next t → t.movedOn s := by
  intro c
  induction c with
  | nil => intro h; cases h
  | cons f rest ih =>
    intro h
    cases f with
    | pulse p => cases h
    | release => cases h
    | wrbyte w =>
      cases w <;> first
        | exact ih h | exact loopW2_movedOn h | (cases h; done) | (cases h; exact ⟨_, _, rfl, rfl⟩)
    | rdbyte b =>
      cases b <;> first
        | exact ih h | exact loopB2_movedOn h | (cases h; done) | (cases h; exact ⟨_, _, rfl, rfl⟩)
    | start c =>
      cases c <;> first | exact ih h | (cases h; done) | (cases h; exact ⟨_, _, rfl, rfl⟩)
    | connreset q =>
      cases q <;> first
        | exact ih h | exact loopQ3_movedOn h | (cases h; done) | (cases h; exact ⟨_, _, rfl, rfl⟩)
    | meas m => cases m <;> first | (cases h; done) | (cases h; exact ⟨_, _, rfl, rfl⟩)
    | rdstat q => cases q <;> first | (cases h; done) | (cases h; exact ⟨_, _, rfl, rfl⟩)
    | wrstat q => cases q <;> first | (cases h; done) | (cases h; exact ⟨_, _, rfl, rfl⟩)
    | wrapper x => cases x <;> first | (cases h; done) | (cases h; exact ⟨_, _, rfl, rfl⟩)

/-- A return does not look at the stack stored in the state. -/
theorem finish_ctl_irrelevant (s : State) (c : List Frame) : ∀ rest : List Frame,
    finish { s with ctl := c } rest = finish s rest := by
  intro rest
  induction rest with
  | nil => rfl
  | cons f rest ih =>
    cases f with
    | pulse p => cases p <;> rfl
    | release => rfl
    | wrbyte w => cases w <;> first | rfl | exact ih
    | rdbyte b => cases b <;> first | rfl | exact ih
    | start c => cases c <;> first | rfl | exact ih
    | connreset q => cases q <;> first | rfl | exact ih
    | meas m => cases m <;> rfl
    | rdstat t => cases t <;> rfl
    | wrstat v => cases v <;> rfl
    | wrapper x => cases x <;> rfl

/-- What the end of a delay can do. -/
theorem leaveDelay_movedOn {s t : State} (h : leaveDelay s = .next t) : t.movedOn s := by
  unfold leaveDelay at h
  split at h
  · exact goOn_movedOn h
  · exact finish_movedOn h
  · exact loopM3_movedOn h
  · simp at h

/-- What the start of a WAIT can do: the event is recorded, and either `wcnt` is loaded, or, for a WAIT of
no ticks, the label moves on at once. -/
theorem startWait_next {n : Nat} {s t : State} (h : startWait n s = .next t) :
    (n ≠ 0 ∧ t = { s.record (.wait n) with work := { s.work with wcnt := n } }) ∨
    (n = 0 ∧ t.movedOn { s.record (.wait 0) with work := { s.work with wcnt := 0 } }) := by
  unfold startWait at h
  by_cases hn : n = 0
  · subst hn
    exact .inr ⟨rfl, leaveDelay_movedOn (by simpa using h)⟩
  · simp only [hn, if_false, Host.Outcome.next.injEq] at h
    exact .inl ⟨hn, h.symm⟩

/-- What one tick of a WAIT can do: the tick passes and `wcnt` counts down; when it reaches 0 the label
moves on. -/
theorem waitTick_next {s t : State} (h : waitTick s = .next t) :
    t = { s.tick with work := { s.work with wcnt := s.work.wcnt - 1 } } ∨
    (s.work.wcnt - 1 = 0 ∧ t.movedOn { s.tick with work := { s.work with wcnt := s.work.wcnt - 1 } }) := by
  unfold waitTick at h
  by_cases hn : s.work.wcnt - 1 = 0
  · exact .inr ⟨hn, leaveDelay_movedOn (by simpa [hn] using h)⟩
  · simp only [hn, if_false, Host.Outcome.next.injEq] at h
    exact .inl h.symm

/-- What the end of a yield can do. -/
theorem endYield_next {s t : State} (h : endYield s = .next t) :
    t.movedOn { s with stat := { s.stat with yieldReq := false } } := leaveDelay_movedOn h

/-- What the block's own move can be: nothing under reset, a tick of idle or held time, the end of a yield,
a tick of a WAIT, or the statement at the top label. -/
theorem blockMove_cases {s t : State} (h : blockMove s = .next t) :
    (s.pins.rst = true ∧ t = s) ∨
    (s.pins.rst = false ∧ s.stat.yieldReq = true ∧ s.pins.yieldAck = false ∧ t = s.tick) ∨
    (s.pins.rst = false ∧ s.stat.yieldReq = true ∧ s.pins.yieldAck = true ∧ endYield s = .next t) ∨
    (s.pins.rst = false ∧ s.stat.yieldReq = false ∧ 0 < s.work.wcnt ∧ waitTick s = .next t) ∨
    (s.pins.rst = false ∧ s.stat.yieldReq = false ∧ s.work.wcnt = 0 ∧ s.ctl = [] ∧ t = s.tick) ∨
    (s.pins.rst = false ∧ s.stat.yieldReq = false ∧ s.work.wcnt = 0 ∧
      ∃ f rest, s.ctl = f :: rest ∧ statement f rest s = .next t) := by
  unfold blockMove at h
  split at h
  case isTrue hr => exact .inl ⟨hr, by simpa using h.symm⟩
  case isFalse hr =>
    have hr : s.pins.rst = false := by simpa using hr
    split at h
    case isTrue hy =>
      split at h
      case isTrue ha => exact .inr (.inr (.inl ⟨hr, hy, ha, h⟩))
      case isFalse ha => exact .inr (.inl ⟨hr, hy, by simpa using ha, by simpa using h.symm⟩)
    case isFalse hy =>
      have hy : s.stat.yieldReq = false := by simpa using hy
      split at h
      case isTrue hw => exact .inr (.inr (.inr (.inl ⟨hr, hy, hw, h⟩)))
      case isFalse hw =>
        have hw : s.work.wcnt = 0 := by omega
        split at h
        case h_1 hc => exact .inr (.inr (.inr (.inr (.inl ⟨hr, hy, hw, hc, by simpa using h.symm⟩))))
        case h_2 f rest hc => exact .inr (.inr (.inr (.inr (.inr ⟨hr, hy, hw, f, rest, hc, h⟩))))

end Sys2Proof.Machine
end

