-- ==== Sys2Proof/Laws/Host.lean ====
section
/-! SUPPORT. What an offered command and a step can do, said once each, and how runs compose. -/

namespace Sys2Proof.Machine

/-- What an offered command can do: it is lost under reset, rejected while busy, else accepted. -/
theorem offer_cases (i : Instr) (x : WrapAt) (s : State) :
    (s.pins.rst = true ∧ s.offer i x = s) ∨
    (s.pins.rst = false ∧ s.stat.busy = true ∧
      s.offer i x = { s with stat := { s.stat with ill := true } }) ∨
    (s.pins.rst = false ∧ s.stat.busy = false ∧ s.offer i x = s.accept i x) := by
  cases hr : s.pins.rst <;> cases hb : s.stat.busy <;> simp [State.offer, State.reject, hr, hb]

/-- The wrapper and the offer that every meaning comes down to. -/
theorem exec_is_an_offer (i : Instr) (s : State) : ∃ x, exec i s = .next (s.offer i x) := by
  cases i <;> exact ⟨_, rfl⟩

/-- What a step can be, by the head of the agenda. -/
theorem step_cases (s : State) :
    (s.world.agenda = [] ∧ step s = blockMove s) ∨
    ∃ m rest, s.world.agenda = m :: rest ∧
      ((m = .run ∧ step s = blockMove (s.taken rest)) ∨
       (m = .waitIdle ∧ step s = .next (waitIdle (s.taken rest))) ∨
       (m = .waitYield ∧ step s = .next (waitYield (s.taken rest))) ∨
       (∃ w i, m = .host (.write 0 w) ∧ decode w = .command i ∧ step s = exec i (s.taken rest)) ∨
       (∃ w why, m = .host (.write 0 w) ∧ decode w = .illegal why ∧
          step s = .next (s.taken rest).reject) ∨
       ∃ a, m = .host a ∧ (∀ w, a ≠ .write 0 w) ∧ step s = hostAct a (s.taken rest)) := by
  unfold step nextMove
  rcases hag : s.world.agenda with _ | ⟨m, rest⟩
  · exact .inl ⟨rfl, rfl⟩
  refine .inr ⟨m, rest, rfl, ?_⟩
  cases m with
  | run => exact .inl ⟨rfl, rfl⟩
  | waitIdle => exact .inr (.inl ⟨rfl, rfl⟩)
  | waitYield => exact .inr (.inr (.inl ⟨rfl, rfl⟩))
  | host a =>
    cases a with
    | write addr v =>
      by_cases h0 : addr = 0
      · subst h0
        cases hd : decode v with
        | command i => exact .inr (.inr (.inr (.inl ⟨v, i, rfl, hd, by simp [writeMove, hd]⟩)))
        | illegal why =>
          exact .inr (.inr (.inr (.inr (.inl ⟨v, why, rfl, hd, by simp [writeMove, hd]⟩))))
      · have hn : addr.toNat ≠ 0 := fun h => h0 (BitVec.eq_of_toNat_eq h)
        exact .inr (.inr (.inr (.inr (.inr
          ⟨.write addr v, rfl, by simpa using fun h => absurd h h0, by simp [writeMove, hn]⟩))))
    | read addr => exact .inr (.inr (.inr (.inr (.inr ⟨_, rfl, by simp, rfl⟩))))
    | hookReturn => exact .inr (.inr (.inr (.inr (.inr ⟨_, rfl, by simp, rfl⟩))))
    | driveAck l => exact .inr (.inr (.inr (.inr (.inr ⟨_, rfl, by simp, rfl⟩))))
    | driveRst l => exact .inr (.inr (.inr (.inr (.inr ⟨_, rfl, by simp, rfl⟩))))

/-- What waiting for a yield can do: the host goes on, or the block moves once before it looks again. -/
theorem waitYield_cases (s : State) :
    ((s.stat.yieldReq = true ∨ s.stat.busy = false) ∧ waitYield s = s) ∨
    (s.stat.yieldReq = false ∧ s.stat.busy = true ∧
      waitYield s = s.taken (.run :: .waitYield :: s.world.agenda)) := by
  cases hy : s.stat.yieldReq <;> cases hb : s.stat.busy <;> simp [waitYield, State.taken, hy, hb]

/-- A run of no step. -/
theorem run_zero (s : State) : Host.Core.run core 0 s = .next s := rfl

/-- A run whose first step answers a next state goes on from it. -/
theorem run_succ {k : Nat} {s t : State} (h : step s = .next t) :
    Host.Core.run core (k + 1) s = Host.Core.run core k t := by
  have h' : core.step s = .next t := h
  simp only [Host.Core.run, h']

/-- Runs compose. -/
theorem run_add {j k : Nat} {s t : State} (h : Host.Core.run core j s = .next t) :
    Host.Core.run core (j + k) s = Host.Core.run core k t := by
  induction j generalizing s with
  | zero =>
    cases h
    rw [Nat.zero_add]
  | succ j ih =>
    rw [show j + 1 + k = (j + k) + 1 by omega]
    simp only [Host.Core.run] at h ⊢
    split at h
    · exact ih h
    · cases h
    · cases h

end Sys2Proof.Machine
end

