-- ==== Sys2Proof/Laws/PerInstr.lean ====
section
/-! SUPPORT. A statement about every command as syntax, one lemma per constructor. -/

namespace Sys2Proof.Laws.TableRow

/-- The command's word is selected by the row of the opcode map that has its mnemonic (R92). -/
def Statement (i : Instr) : Prop :=
  ∃ row ∈ opcodeMap, row.mnemonic = mnemonicOf i ∧ row.selects (encode i) = true

theorem start : Statement .start := ⟨_, List.mem_cons_self, rfl, by decide⟩

theorem connreset : Statement .connreset := ⟨opcodeMap[1], by decide, rfl, by decide⟩

theorem meas (sel : Sel) (hook : Bool) : Statement (.meas sel hook) :=
  ⟨opcodeMap[2], by decide, rfl, by cases sel <;> cases hook <;> decide⟩

theorem rdstat : Statement .rdstat := ⟨opcodeMap[3], by decide, rfl, by decide⟩

/-- A byte below a fixed upper part is masked away by 0xFFFFFF00. -/
theorem byteMasked (op : BitVec 4) (v : Byte) :
    wordOf ⟨0, op, v⟩ &&& 0xFFFFFF00#32 = wordOf ⟨0, op, 0⟩ := by
  apply BitVec.eq_of_getLsbD_eq
  intro i hi
  have h : ∀ j < 32, (0xFFFFFF00#32).getLsbD j = decide (8 ≤ j) := by decide
  simp only [wordOf, BitVec.getLsbD_and, BitVec.getLsbD_append, h i hi]
  by_cases h8 : i < 8
  · simp [h8, show ¬ 8 ≤ i by omega]
  · simp [h8, show 8 ≤ i by omega]

theorem wrstat (value : Byte) : Statement (.wrstat value) :=
  ⟨opcodeMap[4], by decide, rfl, by
    show (wordOf ⟨0, 0x5, value⟩ &&& 0xFFFFFF00#32 == 0x00000500#32) = true
    rw [byteMasked]; decide⟩

theorem wrbyte (value : Byte) : Statement (.wrbyte value) :=
  ⟨opcodeMap[5], by decide, rfl, by
    show (wordOf ⟨0, 0x6, value⟩ &&& 0xFFFFFF00#32 == 0x00000600#32) = true
    rw [byteMasked]; decide⟩

theorem rdbyte (ack : Bool) : Statement (.rdbyte ack) :=
  ⟨opcodeMap[6], by decide, rfl, by cases ack <;> decide⟩

end Sys2Proof.Laws.TableRow
end

