-- ==== Sys2Proof/Tests/Slice0.lean ====
section
/-! SUPPORT. Tests: the smoke test of the well-formedness checks, words written out from R90 to R95, single steps against the
values of 95_test_vectors.md and of the rules' examples, and a witness for the hypotheses of each statement. -/

namespace Sys2Proof.Tests

open Sys2Proof Sys2Proof.Machine

/-! ### Ill-formed command fields are rejected, one for each check -/

theorem test_wellFormed_rejects_high_bits : CommandFields.legal ⟨1, 0x1, 0⟩ = false := by decide

theorem test_wellFormed_rejects_reserved_opcode : CommandFields.legal ⟨0, 0x8, 0⟩ = false := by decide

theorem test_wellFormed_rejects_operand_bits : CommandFields.legal ⟨0, 0x3, 0x04⟩ = false := by decide

theorem test_wellFormed_accepts : CommandFields.legal ⟨0, 0x3, 0x03⟩ = true := by decide

/-! ### Decoding: each word written bit by bit from R90, R92 and R93 -/

theorem test_decode_start :
    decode 0b00000000000000000000_0001_00000000 = .command .start := by decide

theorem test_decode_connreset :
    decode 0b00000000000000000000_0010_00000000 = .command .connreset := by decide

theorem test_decode_meas_temp :
    decode 0b00000000000000000000_0011_00000000 = .command (.meas .temp false) := by decide

theorem test_decode_meas_humi :
    decode 0b00000000000000000000_0011_00000001 = .command (.meas .humi false) := by decide

theorem test_decode_meas_temp_hook :
    decode 0b00000000000000000000_0011_00000010 = .command (.meas .temp true) := by decide

theorem test_decode_rdstat :
    decode 0b00000000000000000000_0100_00000000 = .command .rdstat := by decide

theorem test_decode_wrstat :
    decode 0b00000000000000000000_0101_00000001 = .command (.wrstat 0x01) := by decide

theorem test_decode_wrbyte :
    decode 0b00000000000000000000_0110_10100101 = .command (.wrbyte 0xA5) := by decide

theorem test_decode_rdbyte_ack :
    decode 0b00000000000000000000_0111_00000001 = .command (.rdbyte true) := by decide

theorem test_decode_zero_word_is_illegal : decode 0 = .illegal .reservedOpcode := by decide

theorem test_decode_high_bit_is_illegal :
    decode 0b10000000000000000000_0001_00000000 = .illegal .highBits := by decide

theorem test_decode_rdbyte_operand_bit_is_illegal :
    decode 0b00000000000000000000_0111_00000010 = .illegal .operandBits := by decide

theorem test_encode_words :
    [encode .start, encode .connreset, encode (.meas .humi true), encode .rdstat, encode (.wrstat 0x01),
      encode (.wrbyte 0xA5), encode (.rdbyte true)] =
    [0x100, 0x200, 0x303, 0x400, 0x501, 0x6A5, 0x701] := by decide

theorem test_tableWord_humi : decodeTableWord 32 0x301 = some (.meas .humi false) := by decide

theorem test_tableWord_of_16_bits : decodeTableWord 16 0x701 = some (.rdbyte true) := by decide

/-! ### Small states -/

/-- The idle block that the automatic bus reset leaves (R38, R251), with nothing measured. -/
def idle : State :=
  { State.reset with
    line := ⟨.low, .driven, .low, .released⟩
    stat := { Stat.reset with busy := false }
    ctl := [] }

/-- A running block at a control stack, the line idle. -/
def running (c : List Frame) : State :=
  { idle with stat := { idle.stat with busy := true }, ctl := c }

/-- The same state with these coming moves. -/
def withAgenda (s : State) (m : List Move) : State := { s with world := { s.world with agenda := m } }

/-- The same state with these coming answers of the device. -/
def withAnswers (s : State) (as : List Level) : State := { s with world := { s.world with answers := as } }

/-- A hooked MEAS suspended after its poll `n`. -/
def suspended (n : Nat) : State :=
  let s := running [.meas .m3c, .wrapper .x3a]
  { s with
    stat := { s.stat with yieldReq := true }
    cmd := 0x302
    work := { s.work with op := 0x3, arg := 0x02, n := n } }

/-- A MEAS of the selector bit about to complete with a raw value. -/
def measured (arg : Byte) (raw : Raw) : State :=
  let s := running [.wrapper .x3b]
  { s with work := { s.work with op := 0x3, arg := arg, res := .success raw } }

/-! ### One step of each instruction, and of the script's HOOKRET -/

/-- P6, step 5: HOOKRET as the next line of a script whose MEAS has not yielded yet lets the block move. -/
theorem test_hookret_waits_for_the_yield :
    ∃ t, step (withAgenda (running [.meas .m3c, .wrapper .x3a]) (expandScript [.hookret])) = .next t ∧
      t.world.agenda = [.run, .waitYield, .host .hookReturn] := ⟨_, rfl, rfl⟩

/-- The word of `WRBYTE #0xA5` as the first command. -/
theorem test_first_command :
    ∃ t, step (State.reset.withFetchWord 32 0x6A5) = .next t ∧ t.cmd = 0x6A5 ∧ t.work.arg = 0xA5 ∧
      t.ctl = [.wrapper .x6a] := ⟨_, rfl, by decide, by decide, rfl⟩

theorem test_start_accepted :
    ∃ t, exec .start idle = .next t ∧ t.stat.busy = true ∧ t.cmd = 0x100 ∧ t.ctl = [.wrapper .x1a] :=
  ⟨_, rfl, rfl, by decide, rfl⟩

/-- R162: S2 drives the line before it writes 1. -/
theorem test_start_s2_drives :
    ∃ t, step (running [.start .s2dir, .wrapper .x1a]) = .next t ∧ t.line.sdaOe = .driven ∧
      t.line.sdaO = .low := ⟨_, rfl, rfl, rfl⟩

/-- R228: a command during the automatic bus reset sets ILL and does not start. -/
theorem test_connreset_rejected_after_reset :
    ∃ t, exec .connreset State.reset = .next t ∧ t.stat.word = 0x41 ∧ t.ctl = [.wrapper .x2a] :=
  ⟨_, rfl, by decide, rfl⟩

/-- R164 Q1: the first event makes the clock pin an output. -/
theorem test_connreset_drives_the_clock :
    ∃ t, step (running [.connreset .q1dir, .wrapper .x2a]) = .next t ∧ t.line.sckOe = .driven :=
  ⟨_, rfl, rfl⟩

/-- R169: the completion of a humidity measurement, M6 of the vectors. -/
theorem test_meas_commits :
    ∃ t, step (measured 0x01 0x0102) = .next t ∧ t.stat.word = 0x20 ∧ t.readWord 7 = 0x000BB5A8 ∧
      t.temp = 0 := ⟨_, rfl, by decide, by decide, rfl⟩

/-- R174: with CRC_EN = 0 a third byte other than 0x00 fails. -/
theorem test_meas_wrong_checksum :
    ∃ t, step { running [.meas .m7, .wrapper .x3a] with work := { Work.reset with ck := 0x7C } } = .next t ∧
      t.work.cause = .checksumMismatch ∧ t.ctl = [.meas .m8call, .wrapper .x3a] := ⟨_, rfl, rfl, rfl⟩

/-- V17: RDATA is written although the command byte was not acknowledged. -/
theorem test_rdstat_no_ack :
    ∃ t, step { running [.wrapper .x4b] with work := { Work.reset with r := 0xFF, e1 := .high } } = .next t ∧
      t.stat.word = 0x06 ∧ t.readWord 3 = 0xFF := ⟨_, rfl, by decide, by decide⟩

/-- R179: the error of WRSTAT is the OR of its two acknowledges. -/
theorem test_wrstat_first_byte_not_acknowledged :
    ∃ t, step { running [.wrstat .v4, .wrapper .x5a] with work := { Work.reset with e1 := .high } } =
        .next t ∧ t.work.e = .high ∧ t.ctl = [.wrapper .x5b] := ⟨_, rfl, rfl, rfl⟩

/-- R141 W2a: bit 7 of 0xA5 is 1. -/
theorem test_wrbyte_drives_bit_7 :
    ∃ t, step { running [.wrbyte .w2a, .wrapper .x6a] with work := { Work.reset with v := 0xA5, i := 7 } } =
        .next t ∧ t.line.sdaO = .high := ⟨_, rfl, by decide⟩

/-- R142: with nothing connected STAT reads ERR = 1, CAUSE = 1. -/
theorem test_wrbyte_no_ack :
    ∃ t, step { running [.wrapper .x6b] with work := { Work.reset with e := .high } } = .next t ∧
      t.stat.word = 0x06 := ⟨_, rfl, by decide⟩

/-- R143 B2b: 0x2D shifted by a sampled 0 is 0x5A. -/
theorem test_rdbyte_shifts :
    ∃ t, step
        { withAnswers (running [.rdbyte .b2b, .wrapper .x7a]) [.low] with
          work := { Work.reset with r := 0x2D } } = .next t ∧ t.work.r = 0x5A := ⟨_, rfl, by decide⟩

/-- R143 B4: NACK drives the line high. -/
theorem test_rdbyte_nack_drives_high :
    ∃ t, step (running [.rdbyte .b4, .wrapper .x7a]) = .next t ∧ t.line.sdaO = .high := ⟨_, rfl, rfl⟩

/-! ### The converter and the checksum against the listed values -/

/-- V15, M3: TEMP = 0x683A. -/
theorem test_temp_fx : tempFx 0x683A = 0x05D7BB4A := by decide

/-- V15, M7: a negative temperature. -/
theorem test_temp_fx_negative : tempFx 0x0D70 = 0xFFC1C6F0 := by decide

/-- R181. -/
theorem test_crc8 : crc8 0x68 0x3A = 0x7C := by decide +kernel

/-! ### Witnesses: the hypotheses of each statement are met -/

theorem witness_DecodedWordIsTheCommandsEncoding : decode 0x303 = .command (.meas .humi true) := by decide

theorem witness_OpcodeRowSelectsExactlyItsCommands :
    (⟨"MEAS", 0x300, 0xFFFFFFFC⟩ : OpcodeRow) ∈ opcodeMap ∧
      (⟨"MEAS", 0x300, 0xFFFFFFFC⟩ : OpcodeRow).selects 0x303 = true := by decide

theorem witness_StepRunsTheDecodedCommand :
    (withAgenda idle [.host (.write 0 0x501), .run]).world.agenda = .host (.write 0 0x501) :: [.run] ∧
      decode 0x501 = .command (.wrstat 0x01) := by decide

theorem witness_IdleBlockAcceptsEveryCommand : idle.pins.rst = false ∧ idle.stat.busy = false := by decide

theorem witness_BusyBlockRejectsEveryCommand :
    State.reset.pins.rst = false ∧ State.reset.stat.busy = true := by decide

/-- An illegal word on an idle block, a legal word on a busy block, and a legal word on an idle block. -/
theorem witness_CmdWriteIsRejectedWhenIllegalOrBusy :
    ((withAgenda idle [.host (.write 0 0x304)]).world.agenda = .host (.write 0 0x304) :: [] ∧
      idle.pins.rst = false ∧ (fieldsOf 0x304).legal = false) ∧
    ((withAgenda State.reset [.host (.write 0 0x303)]).world.agenda = .host (.write 0 0x303) :: [] ∧
      State.reset.pins.rst = false ∧ State.reset.stat.busy = true) ∧
    ((withAgenda idle [.host (.write 0 0x303)]).world.agenda = .host (.write 0 0x303) :: [] ∧
      idle.pins.rst = false ∧ (fieldsOf 0x303).legal = true ∧ idle.stat.busy = false) := by decide

/-- Every address of the window. -/
theorem witness_HostReadReturnsTheWindowWord :
    ∀ a : Fin 8, (withAgenda idle [.host (.read (BitVec.ofFin a))]).world.agenda =
      .host (.read (BitVec.ofFin a)) :: [] := by decide

/-- Each clause: word 0, word 2 idle and busy, words 1 and 7. -/
theorem witness_HostWriteActsByItsAddress :
    (withAgenda idle [.host (.write 0 0x100)]).world.agenda = .host (.write 0 0x100) :: [] ∧
    (withAgenda idle [.host (.write 2 1)]).world.agenda = .host (.write 2 1) :: [] ∧
    (withAgenda State.reset [.host (.write 2 1)]).world.agenda = .host (.write 2 1) :: [] ∧
    (withAgenda idle [.host (.write 1 1)]).world.agenda = .host (.write 1 1) :: [] ∧
    (withAgenda idle [.host (.write 7 1)]).world.agenda = .host (.write 7 1) :: [] ∧
    idle.pins.rst = false ∧ State.reset.pins.rst = false := by decide

theorem witness_HostAccessesDoNotDisturbTheBlock :
    State.reset.pins.rst = false ∧ State.reset.stat.busy = true ∧
      ∃ t, blockMove State.reset = .next t := ⟨rfl, rfl, _, rfl⟩

theorem witness_WaitidleReadsStatUntilIdle :
    (withAgenda idle [.waitIdle, .run]).world.agenda = .waitIdle :: [.run] := by decide

theorem idle_ready : idle.ready ∧ idle.alone := by
  simp [State.ready, State.alone, idle, State.reset, Stat.reset, Work.reset]

theorem withAnswers_ready (as : List Level) : (withAnswers idle as).ready ∧ (withAnswers idle as).alone :=
  idle_ready

theorem witness_StartCompletesWithTheStartCondition : idle.ready ∧ idle.alone := idle_ready

theorem witness_ConnresetCompletesWithTheBusReset : idle.ready ∧ idle.alone := idle_ready

theorem witness_WrbyteCompletesWithTheWriteFrame :
    (withAnswers idle [.high]).ready ∧ (withAnswers idle [.high]).alone ∧
      (withAnswers idle [.high]).world.answers = Level.high :: [] :=
  ⟨(withAnswers_ready _).1, (withAnswers_ready _).2, rfl⟩

theorem witness_RdbyteCompletesWithTheReadFrame :
    (withAnswers idle (levelsOf 0x5A ++ [])).ready ∧ (withAnswers idle (levelsOf 0x5A ++ [])).alone ∧
      (withAnswers idle (levelsOf 0x5A ++ [])).world.answers = levelsOf 0x5A ++ [] :=
  ⟨(withAnswers_ready _).1, (withAnswers_ready _).2, rfl⟩

theorem witness_RdstatCompletesWithTheByteRead :
    let s := withAnswers idle (Level.high :: (levelsOf 0x3A ++ []))
    s.ready ∧ s.alone ∧ s.world.answers = Level.high :: (levelsOf 0x3A ++ []) :=
  ⟨(withAnswers_ready _).1, (withAnswers_ready _).2, rfl⟩

theorem witness_WrstatCompletesWithBothBytesSent :
    let s := withAnswers idle [.high, .low]
    s.ready ∧ s.alone ∧ s.world.answers = Level.high :: Level.low :: [] :=
  ⟨(withAnswers_ready _).1, (withAnswers_ready _).2, rfl⟩

/-- The device is ready at the first and at the last permitted poll, without a hook and with one. -/
theorem witness_MeasSucceedsWhenTheDeviceBecomesReady :
    ∀ j ∈ [0, 249], ∀ hook : Bool,
      let as := Level.low :: (List.replicate j .high ++ Level.low ::
        (levelsOf 0x68 ++ levelsOf 0x3A ++ levelsOf 0x00 ++ []))
      let s := { withAnswers idle as with pins := ⟨false, true⟩ }
      s.ready ∧ s.alone ∧ (hook = true → s.pins.yieldAck = true) ∧ j < 250 ∧ s.world.answers = as ∧
        (0x00 : Byte) = (if s.crcEn then crc8 0x68 0x3A else 0x00) := by
  intro j hj hook
  have : j < 250 := by simp at hj; omega
  exact ⟨idle_ready.1, idle_ready.2, fun _ => rfl, this, rfl, rfl⟩

theorem witness_MeasFailsOnAWrongChecksum :
    ∀ j ∈ [0, 249], ∀ hook : Bool,
      let as := Level.low :: (List.replicate j .high ++ Level.low ::
        (levelsOf 0x68 ++ levelsOf 0x3A ++ levelsOf 0x7D ++ []))
      let s := { withAnswers idle as with pins := ⟨false, true⟩, crcEn := true }
      s.ready ∧ s.alone ∧ (hook = true → s.pins.yieldAck = true) ∧ j < 250 ∧ s.world.answers = as ∧
        (0x7D : Byte) ≠ (if s.crcEn then crc8 0x68 0x3A else 0x00) := by
  intro j hj hook
  have : j < 250 := by simp at hj; omega
  exact ⟨idle_ready.1, idle_ready.2, fun _ => rfl, this, rfl, by simp only [if_true, test_crc8]; decide⟩

theorem witness_MeasTimesOutAfterExactly250Polls :
    ∀ hook : Bool,
      let as := Level.high :: (List.replicate 250 .high ++ [])
      let s := { withAnswers idle as with pins := ⟨false, true⟩ }
      s.ready ∧ s.alone ∧ (hook = true → s.pins.yieldAck = true) ∧ s.world.answers = as :=
  fun _ => ⟨idle_ready.1, idle_ready.2, fun _ => rfl, rfl⟩

theorem witness_SmallStepRunIsTheBigStepResult :
    let s : State := { idle with pins := ⟨false, true⟩ }
    s.ready ∧ s.alone ∧ ((∃ sel, Instr.meas .temp true = .meas sel true) → s.pins.yieldAck = true) :=
  ⟨idle_ready.1, idle_ready.2, fun _ => rfl⟩

theorem witness_ByteRoundTripThroughAnEchoingPeer :
    (withAnswers idle [.low]).ready ∧ (withAnswers idle [.low]).alone ∧
      (withAnswers idle [.low]).idleLine ∧ (withAnswers idle [.low]).world.answers = Level.low :: [] :=
  ⟨(withAnswers_ready _).1, (withAnswers_ready _).2, ⟨rfl, rfl, rfl⟩, rfl⟩

/-- A host that returns every hook at once, and one that takes longer after each poll (R168). -/
theorem witness_HookedRunIsTheBigStepResultForEveryDuration :
    ∀ d ∈ [fun _ => 0, fun n : Nat => 10 * n],
      let s := withAgenda idle (expandScript (hookScript d 250))
      s.ready ∧ s.pins.yieldAck = false ∧ s.world.agenda = expandScript (hookScript d 250) :=
  fun _ _ => ⟨idle_ready.1, rfl, rfl⟩

/-- A reset in the middle of a MEAS. -/
theorem witness_AutomaticBusResetAfterReset : (running [.meas .m5, .wrapper .x3a]).alone := rfl

theorem witness_PulseWritesTheClockOnceInSevenTicks :
    let s := running [.pulse .p1, .start .s1, .wrapper .x1a]
    s.pins.rst = false ∧ s.stat.yieldReq = false ∧ s.work.wcnt = 0 ∧ s.alone ∧
      s.ctl = .pulse .p1 :: [.start .s1, .wrapper .x1a] := ⟨rfl, rfl, rfl, rfl, rfl⟩

/-- Each line driven, and the data line released. -/
theorem witness_LineLevelsFollowLatchesAndDirections :
    idle.line.sckOe = .driven ∧ idle.line.sdaOe = .released ∧
      (idle.sdaDir .driven).line.sdaOe = .driven := ⟨rfl, rfl, rfl⟩

theorem witness_PendingYieldHoldsUntilTheHookReturns :
    (suspended 1).alone ∧ (suspended 1).pins.rst = false ∧ (suspended 1).pins.yieldAck = false ∧
      (suspended 1).stat.yieldReq = true := ⟨rfl, rfl, rfl, rfl⟩

/-- Before the last poll, at `n` = 249, and after it, at `n` = 250. -/
theorem witness_HookedYieldIsRaisedAndReturned :
    ∀ n ∈ [249, 250],
      let s := { suspended n with stat := { (suspended n).stat with yieldReq := false } }
      s.pins.rst = false ∧ s.stat.yieldReq = false ∧ s.work.wcnt = 0 ∧ hookOperand s.work.arg = true ∧
        s.ctl = .meas .m3c :: [.wrapper .x3a] ∧ (s.work.n < 250 ∨ 250 ≤ s.work.n) := by decide

/-- Each clause: a pending yield, a running command, an idle block. -/
theorem witness_HookretActsWhileAYieldIsPending :
    let m := ScriptLine.hookret.expand ++ [.run]
    ((withAgenda (suspended 1) m).world.agenda = m ∧ (withAgenda (suspended 1) m).stat.yieldReq = true) ∧
    ((withAgenda State.reset m).world.agenda = m ∧ (withAgenda State.reset m).stat.yieldReq = false ∧
      (withAgenda State.reset m).stat.busy = true) ∧
    ((withAgenda idle m).world.agenda = m ∧ (withAgenda idle m).stat.yieldReq = false ∧
      (withAgenda idle m).stat.busy = false) := by decide

theorem witness_HookReturnOutsideAYieldIsIgnored : idle.stat.yieldReq = false := rfl

/-- Two bytes that differ. -/
theorem witness_CrcIsLinearAndSeesASingleByteError : (0x3A : Byte) ≠ 0x3B := by decide

/-- Above 99, below 0.1, and the two ends of the range that is not clamped. -/
theorem witness_ConverterIsTheSourcesFormulaExactly :
    ((linRh 3441 : ℚ) / 409600 > 99) ∧ ((linRh 199 : ℚ) / 409600 < 0.1) ∧
      (0.1 ≤ (linRh 200 : ℚ) / 409600 ∧ (linRh 200 : ℚ) / 409600 ≤ 99) ∧
      (0.1 ≤ (linRh 3440 : ℚ) / 409600 ∧ (linRh 3440 : ℚ) / 409600 ≤ 99) := by
  rw [show linRh 3441 = 40554900 by decide, show linRh 199 = 29900 by decide,
    show linRh 200 = 42400 by decide, show linRh 3440 = 40542400 by decide]
  norm_num

theorem witness_TemperatureGrowsBy4393PerCount :
    (1 : Raw).toNat = (0 : Raw).toNat + 1 ∧ (65535 : Raw).toNat = (65534 : Raw).toNat + 1 := by decide

/-- The boundary counts of the three ranges. -/
theorem witness_HumidityClampInTermsOfTheRawCount :
    (199 : Raw).toNat ≤ 199 ∧ (200 ≤ (200 : Raw).toNat ∧ (200 : Raw).toNat ≤ 3440) ∧
      (200 ≤ (3440 : Raw).toNat ∧ (3440 : Raw).toNat ≤ 3440) ∧ 3441 ≤ (3441 : Raw).toNat ∧
      3441 ≤ (65535 : Raw).toNat := by decide

theorem witness_HumidityIsClampedAndMonotone :
    (65535 : Raw).toNat = (65534 : Raw).toNat + 1 ∧ (199 : Raw).toNat ≤ (200 : Raw).toNat ∧
      ((0 : Raw).toNat ≤ 199 ∧ (199 : Raw).toNat ≤ 199) ∧
      (3441 ≤ (3441 : Raw).toNat ∧ 3441 ≤ (65535 : Raw).toNat) := by decide

/-- The idle block is sound. -/
theorem idle_inv : idle.Inv where
  busyIff := by decide
  stack := by decide
  line := ⟨rfl, rfl, rfl⟩
  wait := .inl rfl
  yield_ := fun h => by cases h
  cause := ⟨fun h => by simp [idle] at h, fun h => by simp [idle] at h⟩
  err := by unfold State.errOk; decide
  counters := by unfold State.countersOk; decide
  command := ⟨by decide, by decide, by decide, fun x h => by simp [idle] at h⟩
  rst := fun h => by cases h

theorem witness_EveryStepKeepsTheInvariant : idle.Inv := idle_inv

theorem witness_EveryStepKeepsTheTimingContract :
    idle.TimedInv ∧ ∃ t, step idle = .next t :=
  ⟨⟨idle_inv, List.Pairwise.nil, (by simp [State.clockAge, idle, State.reset]),
    by simp [State.dataAge, idle, State.reset]⟩, _, rfl⟩

theorem witness_IdleBlockHasAnIdleLine : idle.Inv ∧ idle.stat.busy = false := ⟨idle_inv, rfl⟩

/-- The deepest chain, R34 (g). -/
theorem witness_StackHoldsAtMostFiveFrames :
    stackOk [.pulse .p1, .start .s1, .connreset .q4, .meas .m8call, .wrapper .x3a] = true := by decide

/-- A MEAS at its first poll. -/
def polling : State :=
  let s := withAnswers (running [.meas .m3a, .wrapper .x3a]) [.high]
  { s with cmd := 0x300, work := { s.work with op := 0x3, n := 1 } }

theorem polling_inv : polling.Inv where
  busyIff := by decide
  stack := by decide
  line := ⟨.inr (.inr rfl), rfl, rfl⟩
  wait := .inl rfl
  yield_ := fun h => by cases h
  cause := ⟨by decide, by decide⟩
  err := by unfold State.errOk; decide
  counters := by unfold State.countersOk; decide
  command := ⟨by decide, by decide, by decide, fun x h => by
    simp [polling, withAnswers, running] at h
    subst h
    rfl⟩
  rst := fun h => by cases h

theorem witness_SampleOnlyWhileReleased :
    polling.Inv ∧ ∃ t, step polling = .next t ∧
      t.trace = ⟨polling.ticks, .sample .high⟩ :: polling.trace := ⟨polling_inv, _, rfl, rfl⟩

/-- Neither (a call), a tick on an idle block, an event, and the start of a reset. -/
theorem witness_StepRecordsAtMostOneEventOrLetsOneTickPass :
    (∃ t, step (running [.start .s1, .wrapper .x1a]) = .next t ∧ t.trace = [] ∧ t.ticks = 0) ∧
    (∃ t, step idle = .next t ∧ t.ticks = idle.ticks + 1) ∧
    (∃ t, step polling = .next t ∧ t.trace ≠ polling.trace) ∧
    ∃ t, step (withAgenda { idle with ticks := 9 } [.host (.driveRst true)]) = .next t ∧ t.ticks = 0 :=
  ⟨⟨_, rfl, rfl, rfl⟩, ⟨_, rfl, rfl⟩, ⟨_, rfl, by decide⟩, _, rfl, rfl⟩

/-- A successful measurement of each kind, and a reset. -/
theorem witness_RawRegistersChangeOnlyOnSuccess :
    (∃ t, step (measured 0x00 0x683A) = .next t ∧ t.temp ≠ (measured 0x00 0x683A).temp) ∧
    (∃ t, step (measured 0x01 0x0102) = .next t ∧ t.humi ≠ (measured 0x01 0x0102).humi) ∧
    ∃ t, step (withAgenda { idle with temp := 1 } [.host (.driveRst true)]) = .next t ∧ t.temp ≠ 1 :=
  ⟨⟨_, rfl, by decide⟩, ⟨_, rfl, by decide⟩, _, rfl, by decide⟩

/-- The completion of RDSTAT, of RDBYTE, and a reset. -/
theorem witness_RdataChangesOnlyWhenAByteWasRead :
    (∀ x ∈ [WrapAt.x4b, WrapAt.x7b], ∃ t,
      step { running [.wrapper x] with work := { Work.reset with r := 0x5A } } = .next t ∧ t.rdata ≠ 0) ∧
    ∃ t, step (withAgenda { idle with rdata := 1 } [.host (.driveRst true)]) = .next t ∧ t.rdata ≠ 1 := by
  refine ⟨?_, _, rfl, by decide⟩
  intro x hx
  simp only [List.mem_cons, List.not_mem_nil, or_false] at hx
  rcases hx with rfl | rfl <;> exact ⟨_, rfl, by decide⟩

/-- A write to CFG, and a reset. -/
theorem witness_CrcEnChangesOnlyByAnIdleCfgWrite :
    (∃ t, step (withAgenda idle [.host (.write 2 1)]) = .next t ∧ t.crcEn ≠ idle.crcEn) ∧
    ∃ t, step (withAgenda { idle with crcEn := true } [.host (.driveRst true)]) = .next t ∧
      t.crcEn ≠ true := ⟨⟨_, rfl, by decide⟩, _, rfl, by decide⟩

/-- A completion without an error and one with an error, and a flag that stays. -/
theorem witness_ResultFlagsChangeOnlyAtCompletion :
    (∃ t, step (running [.wrapper .x1b]) = .next t ∧
      (running [.wrapper .x1b]).world.agenda.head? ≠ some (.host (.driveRst true)) ∧
      (running [.wrapper .x1b]).stat.busy = true ∧ t.stat.busy = false) ∧
    (∃ t, step { running [.wrapper .x6b] with work := { Work.reset with e := .high } } = .next t ∧
      t.stat.err ≠ false ∧ t.stat.cause ≠ .none) ∧
    ∃ t, step { idle with stat := { idle.stat with tvalid := true, hvalid := true } } = .next t ∧
      t.stat.tvalid = true := ⟨⟨_, rfl, by decide, rfl, rfl⟩, ⟨_, rfl, by decide, by decide⟩, _, rfl, rfl⟩

/-- An acceptance, and a reset. -/
theorem witness_CmdChangesOnlyAtAcceptance :
    (∃ t, step (withAgenda idle [.host (.write 0 0x701)]) = .next t ∧ t.cmd ≠ idle.cmd) ∧
    ∃ t, step (withAgenda { idle with cmd := 0x100 } [.host (.driveRst true)]) = .next t ∧
      t.cmd ≠ 0x100 := ⟨⟨_, rfl, by decide⟩, _, rfl, by decide⟩

theorem witness_ClockStaysDrivenUntilReset :
    idle.line.sckOe = .driven ∧ idle.world.agenda.head? ≠ some (.host (.driveRst true)) ∧
      ∃ t, step idle = .next t := ⟨rfl, by decide, _, rfl⟩

end Sys2Proof.Tests
end

section
/-! SUPPORT. Host accesses to the window: what a read returns and what a write does, by address (R61 to R63). -/

namespace Sys2Proof.Machine

/-! ### The bits of STAT (R27) -/

section StatWord
variable (f : Stat)

/-- Every bit of STAT: each field at its place, the reserved bits 0. -/
theorem Stat.word_getLsbD (i : Nat) : f.word.getLsbD i =
    if i = 0 then f.busy else if i = 1 then f.err
    else if i < 4 then (causeCode f.cause).getLsbD (i - 2)
    else if i = 4 then f.tvalid else if i = 5 then f.hvalid else if i = 6 then f.ill
    else if i = 7 then f.yieldReq else false := by
  unfold Stat.word
  change BitVec.getLsbD (w := 24 + 1 + 1 + 1 + 1 + 2 + 1 + 1) _ i = _
  simp only [BitVec.getLsbD_append, BitVec.getLsbD_ofBool]
  by_cases hi : i < 8
  · interval_cases i <;> rfl
  · simp (disch := omega) only [if_neg]
    exact BitVec.getLsbD_zero

theorem Stat.word_cause : f.word.extractLsb' 2 2 = causeCode f.cause := by
  ext i hi
  simp (disch := omega) only [BitVec.getElem_extractLsb', Stat.word_getLsbD, if_neg, if_pos,
    Nat.add_sub_cancel_left]
  exact BitVec.getLsbD_eq_getElem hi

theorem Stat.word_reserved : f.word.extractLsb' 8 24 = 0 := by
  ext i hi
  simp (disch := omega) only [BitVec.getElem_extractLsb', Stat.word_getLsbD, if_neg]
  exact (BitVec.getElem_zero hi).symm

end StatWord

/-! ### The fixed-point words (R31, R206): every converted value fits 32 bits -/

theorem toInt_tempFx (raw : Raw) : (tempFx raw).toInt = cvtT raw := by
  have hraw : raw.toNat < 65536 := raw.isLt
  apply BitVec.toInt_ofInt_eq_self (by decide) <;> simp only [cvtT] <;> omega

theorem clampRh_bounds (lin : Int) : 40960 ≤ clampRh lin ∧ clampRh lin ≤ 40960000 := by
  unfold clampRh
  split
  · omega
  · split <;> omega

theorem toInt_humiFx (raw : Raw) : (humiFx raw).toInt = cvtRh raw := by
  obtain ⟨hlo, hhi⟩ := clampRh_bounds (linRh raw)
  apply BitVec.toInt_ofInt_eq_self (by decide) <;> simp only [cvtRh] <;> omega

/-! ### The window word of each address (R61) -/

section Window
variable (s : State)

theorem State.readWord_cmd : s.readWord 0 = s.cmd := rfl
theorem State.readWord_stat : s.readWord 1 = s.stat.word := rfl
theorem State.readWord_cfg : s.readWord 2 = if s.crcEn then 1 else 0 := by
  cases h : s.crcEn <;> simp [State.readWord, h]
theorem State.readWord_rdata : s.readWord 3 = s.rdata.setWidth 32 := rfl
theorem State.readWord_temp : s.readWord 4 = s.temp.setWidth 32 := rfl
theorem State.readWord_humi : s.readWord 5 = s.humi.setWidth 32 := rfl
theorem State.readWord_tempFx : s.readWord 6 = tempFx s.temp := rfl
theorem State.readWord_humiFx : s.readWord 7 = humiFx s.humi := rfl

end Window

/-! ### Writes (R63, R228) -/

theorem State.reject_of_released {s : State} (hrst : s.pins.rst = false) :
    s.reject = { s with stat := { s.stat with ill := true } } := by
  simp [State.reject, hrst]

/-- CFG takes bit 0 on an idle block and keeps CRC_EN on a busy one. -/
theorem State.hostWrite_cfg {s : State} (v : Word) (hrst : s.pins.rst = false) :
    s.hostWrite 2 v = { s with crcEn := if s.stat.busy then s.crcEn else v.getLsbD 0 } := by
  cases hbusy : s.stat.busy <;> simp [State.hostWrite, hrst, hbusy]

theorem State.hostWrite_of_ne_cfg {a : Addr} (ha : a ≠ 2) (v : Word) (s : State) :
    s.hostWrite a v = s := by
  have hn : a.toNat ≠ 2 := fun h => ha (BitVec.eq_of_toNat_eq h)
  simp [State.hostWrite, hn]

/-! ### The step that takes a host access from the agenda (log 2) -/

section HostStep
variable {s : State} {a : Addr} {v : Word} {rest : List Move}

theorem step_of_read (h : s.world.agenda = .host (.read a) :: rest) :
    step s = .next ((s.taken rest).hostRead a) := by
  simp only [step, nextMove, h, hostAct]

theorem step_of_write_cmd_legal {i : Instr} (h : s.world.agenda = .host (.write 0 v) :: rest)
    (hd : decode v = .command i) : step s = exec i (s.taken rest) := by
  simp [step, nextMove, writeMove, h, hd]

theorem step_of_write_cmd_illegal {why : IllegalWord}
    (h : s.world.agenda = .host (.write 0 v) :: rest) (hd : decode v = .illegal why) :
    step s = .next (s.taken rest).reject := by
  simp [step, nextMove, writeMove, h, hd]

theorem step_of_write_ne_cmd (ha : a ≠ 0) (h : s.world.agenda = .host (.write a v) :: rest) :
    step s = .next ((s.taken rest).hostWrite a v) := by
  have hn : a.toNat ≠ 0 := fun h0 => ha (BitVec.eq_of_toNat_eq h0)
  simp [step, nextMove, writeMove, h, hn, hostAct]

end HostStep

end Sys2Proof.Machine
end

section
/-! PROOFS. The host window: the word a read returns and what a write does (R62, R63). -/

namespace Sys2Proof.Machine

/-- Settles O10: the word recorded is `State.readWord`, and the lemmas on it give each clause. -/
theorem hostReadReturnsTheWindowWord : Obligations.HostReadReturnsTheWindowWord := by
  intro s a rest hag
  refine ⟨s.readWord a, step_of_read hag, ?cmd, ?stat, ?cfg, ?rdata, ?temp, ?humi, ?tempFx, ?humiFx⟩
  case cmd => rintro rfl; exact s.readWord_cmd
  case stat =>
    rintro rfl
    have hbit := s.stat.word_getLsbD
    rw [s.readWord_stat]
    exact ⟨hbit 0, hbit 1, s.stat.word_cause, hbit 4, hbit 5, hbit 6, hbit 7, s.stat.word_reserved⟩
  case cfg => rintro rfl; exact s.readWord_cfg
  case rdata => rintro rfl; rw [s.readWord_rdata, BitVec.toNat_setWidth_of_le (by decide)]
  case temp => rintro rfl; rw [s.readWord_temp, BitVec.toNat_setWidth_of_le (by decide)]
  case humi => rintro rfl; rw [s.readWord_humi, BitVec.toNat_setWidth_of_le (by decide)]
  case tempFx => rintro rfl; rw [s.readWord_tempFx, toInt_tempFx]
  case humiFx => rintro rfl; rw [s.readWord_humiFx, toInt_humiFx]

/-- Settles O11, by the address written: CMD (a legal word, an illegal word), CFG, any other word. -/
theorem hostWriteActsByItsAddress : Obligations.HostWriteActsByItsAddress := by
  intro s a v rest hrst hag
  refine ⟨?cmd, ?cfg, ?elsewhere⟩
  case cmd =>
    rintro rfl
    cases hd : decode v with
    | command i => exact step_of_write_cmd_legal hag hd
    | illegal why =>
      rw [step_of_write_cmd_illegal hag hd, State.reject_of_released (s := s.taken rest) hrst]
      rfl
  case cfg =>
    rintro rfl
    rw [step_of_write_ne_cmd (by decide) hag, State.hostWrite_cfg v (s := s.taken rest) hrst]
    rfl
  case elsewhere =>
    intro hcmd hcfg
    rw [step_of_write_ne_cmd hcmd hag, State.hostWrite_of_ne_cfg hcfg]
    rfl

end Sys2Proof.Machine
end

section
/-! SUPPORT. A command word and its three fields (R90), and the rows of the opcode map read by field (R92, R93). -/

namespace Sys2Proof

/-! ### A word is its fields (R90) -/

@[simp] theorem wordOf_fieldsOf (w : Word) : wordOf (fieldsOf w) = w := by
  calc w.extractLsb' 12 20 ++ w.extractLsb' 8 4 ++ w.extractLsb' 0 8
      = w.extractLsb' 8 24 ++ w.extractLsb' 0 8 :=
        congrArg (· ++ w.extractLsb' 0 8) (BitVec.extractLsb'_append_extractLsb'_eq_extractLsb' rfl)
    _ = w.extractLsb' 0 32 := BitVec.extractLsb'_append_extractLsb'_eq_extractLsb' rfl
    _ = w := BitVec.extractLsb'_eq_self

@[simp] theorem fieldsOf_wordOf (f : CommandFields) : fieldsOf (wordOf f) = f := by
  obtain ⟨zero, op, arg⟩ := f
  have hzero : (zero ++ op ++ arg).extractLsb' 12 20 = zero := by
    rw [BitVec.extractLsb'_append_eq_of_le (by decide), BitVec.extractLsb'_append_eq_left]
  have hop : (zero ++ op ++ arg).extractLsb' 8 4 = op := by
    rw [BitVec.extractLsb'_append_eq_of_le (by decide), BitVec.extractLsb'_append_eq_right]
  have harg : (zero ++ op ++ arg).extractLsb' 0 8 = arg := BitVec.extractLsb'_append_eq_right
  exact congr (congr (congrArg CommandFields.mk hzero) hop) harg

theorem wordOf_inj {f g : CommandFields} : wordOf f = wordOf g ↔ f = g :=
  ⟨fun h => by simpa using congrArg fieldsOf h, congrArg wordOf⟩

theorem wordOf_and_wordOf (f g : CommandFields) :
    wordOf f &&& wordOf g = wordOf ⟨f.zero &&& g.zero, f.op &&& g.op, f.arg &&& g.arg⟩ := by
  change (f.zero ++ f.op ++ f.arg) &&& (g.zero ++ g.op ++ g.arg) = _
  rw [BitVec.and_append, BitVec.and_append]
  rfl

/-! ### What a selecting row says of the fields (R92) -/

/-- A row that masks only operand bits fixes bits [31:12], the opcode, and the operand bits of its mask. -/
theorem OpcodeRow.selects_iff {row : OpcodeRow} {op : BitVec 4} {m : Byte} {w : Word}
    (hmask : row.mask = wordOf ⟨BitVec.allOnes 20, BitVec.allOnes 4, m⟩)
    (hmatch : row.matchBits = wordOf ⟨0, op, 0⟩) :
    row.selects w = true ↔
      (fieldsOf w).zero = 0 ∧ (fieldsOf w).op = op ∧ (fieldsOf w).arg &&& m = 0 := by
  have hand : w &&& row.mask =
      wordOf ⟨(fieldsOf w).zero, (fieldsOf w).op, (fieldsOf w).arg &&& m⟩ := by
    calc w &&& row.mask
        = wordOf (fieldsOf w) &&& wordOf ⟨BitVec.allOnes 20, BitVec.allOnes 4, m⟩ := by
          rw [hmask, wordOf_fieldsOf]
      _ = _ := by simp only [wordOf_and_wordOf, BitVec.and_allOnes]
  simp [OpcodeRow.selects, hand, hmatch, wordOf_inj]

/-- A selected word goes to the operand decode of the row's opcode. -/
theorem OpcodeRow.decode_of_selects {row : OpcodeRow} {w : Word} (op : BitVec 4) (m : Byte)
    (hmask : row.mask = wordOf ⟨BitVec.allOnes 20, BitVec.allOnes 4, m⟩)
    (hmatch : row.matchBits = wordOf ⟨0, op, 0⟩) (h : row.selects w = true) :
    decode w = decodeFields op (fieldsOf w).arg ∧ (fieldsOf w).arg &&& m = 0 := by
  obtain ⟨hzero, hop, harg⟩ := (OpcodeRow.selects_iff hmask hmatch).1 h
  exact ⟨by simp [decode, hzero, hop], harg⟩

/-- Operand bits under a mask that covers them are 0 when the masked operand is. -/
theorem extractLsb'_eq_zero_of_and_eq_zero {arg m : Byte} {start len : Nat}
    (hm : m.extractLsb' start len = BitVec.allOnes len) (h : arg &&& m = 0) :
    arg.extractLsb' start len = 0 := by
  calc arg.extractLsb' start len
      = (arg &&& m).extractLsb' start len := by
        rw [BitVec.extractLsb'_and, hm, BitVec.and_allOnes]
    _ = 0 := by simp [h]

theorem eq_zero_of_and_allOnes_eq_zero {arg : Byte} (h : arg &&& 0xFF#8 = 0) : arg = 0 := by
  rwa [show 0xFF#8 = BitVec.allOnes 8 from rfl, BitVec.and_allOnes] at h

/-! ### The operand byte is read back from the decoded command (R93, R94) -/

@[simp] theorem bitOfSel_selOfBit (b : Bool) : bitOfSel (selOfBit b) = b := by cases b <;> rfl

theorem ofBool_getLsbD (x : Byte) (k : Nat) : BitVec.ofBool (x.getLsbD k) = x.extractLsb' k 1 := by
  ext j hj
  obtain rfl : j = 0 := by omega
  simp

theorem extractLsb'_append_bit0 (x : Byte) : x.extractLsb' 1 7 ++ x.extractLsb' 0 1 = x := by
  calc x.extractLsb' 1 7 ++ x.extractLsb' 0 1
      = x.extractLsb' 0 8 := BitVec.extractLsb'_append_extractLsb'_eq_extractLsb' rfl
    _ = x := BitVec.extractLsb'_eq_self

theorem operandByteOf_meas {arg : Byte} (h : arg.extractLsb' 2 6 = 0) :
    operandByteOf (.meas (selOfBit (arg.getLsbD 0)) (arg.getLsbD 1)) = arg := by
  have hhigh : arg.extractLsb' 2 6 ++ arg.extractLsb' 1 1 = arg.extractLsb' 1 7 :=
    BitVec.extractLsb'_append_extractLsb'_eq_extractLsb' rfl
  simp only [operandByteOf, bitOfSel_selOfBit, ofBool_getLsbD]
  rw [← h, hhigh, extractLsb'_append_bit0]

theorem operandByteOf_rdbyte {arg : Byte} (h : arg.extractLsb' 1 7 = 0) :
    operandByteOf (.rdbyte (arg.getLsbD 0)) = arg := by
  simp only [operandByteOf, ofBool_getLsbD]
  rw [← h, extractLsb'_append_bit0]

theorem withoutOperand_eq_command {arg : Byte} {i j : Instr} :
    withoutOperand arg i = .command j ↔ arg = 0 ∧ i = j := by
  unfold withoutOperand
  split
  next h => simp [h]
  next h => exact ⟨nofun, fun h' => absurd h'.1 h⟩

/-- A command decoded from an opcode and an operand byte has that opcode and that operand byte. -/
theorem fields_of_decodeFields {op : BitVec 4} {arg : Byte} {i : Instr}
    (h : decodeFields op arg = .command i) : opcodeOf i = op ∧ operandByteOf i = arg := by
  unfold decodeFields at h
  split at h
  case h_1 hop | h_2 hop | h_4 hop =>
    obtain ⟨rfl, rfl⟩ := withoutOperand_eq_command.1 h
    exact ⟨BitVec.eq_of_toNat_eq hop.symm, rfl⟩
  case h_3 hop =>
    split at h
    next hbits =>
      cases h
      exact ⟨BitVec.eq_of_toNat_eq hop.symm, operandByteOf_meas hbits⟩
    next => cases h
  case h_5 hop | h_6 hop =>
    cases h
    exact ⟨BitVec.eq_of_toNat_eq hop.symm, rfl⟩
  case h_7 hop =>
    split at h
    next hbits =>
      cases h
      exact ⟨BitVec.eq_of_toNat_eq hop.symm, operandByteOf_rdbyte hbits⟩
    next => cases h
  case h_8 => cases h

theorem encode_of_decode {w : Word} {i : Instr} (h : decode w = .command i) : encode i = w := by
  unfold decode at h
  split at h
  next hzero =>
    obtain ⟨hop, harg⟩ := fields_of_decodeFields h
    rw [encode, hop, harg, ← hzero, wordOf_fieldsOf]
  next => cases h

end Sys2Proof
end

section
/-! PROOFS. The opcode map selects each word by its command (R92). -/

namespace Sys2Proof

/-- A selected word meets the row's operand condition (R93), so it decodes to a command of the row. -/
theorem exists_command_of_selects {w : Word} {row : OpcodeRow} (hrow : row ∈ opcodeMap)
    (h : row.selects w = true) : ∃ i, decode w = .command i ∧ mnemonicOf i = row.mnemonic := by
  simp only [opcodeMap, List.mem_cons, List.not_mem_nil, or_false] at hrow
  obtain rfl | rfl | rfl | rfl | rfl | rfl | rfl := hrow
  · obtain ⟨hd, harg⟩ := OpcodeRow.decode_of_selects 0x1 0xFF (by decide) (by decide) h
    exact ⟨.start, by rw [hd, eq_zero_of_and_allOnes_eq_zero harg]; rfl, rfl⟩
  · obtain ⟨hd, harg⟩ := OpcodeRow.decode_of_selects 0x2 0xFF (by decide) (by decide) h
    exact ⟨.connreset, by rw [hd, eq_zero_of_and_allOnes_eq_zero harg]; rfl, rfl⟩
  · obtain ⟨hd, harg⟩ := OpcodeRow.decode_of_selects 0x3 0xFC (by decide) (by decide) h
    exact ⟨.meas _ _, hd.trans (if_pos (extractLsb'_eq_zero_of_and_eq_zero (by decide) harg)), rfl⟩
  · obtain ⟨hd, harg⟩ := OpcodeRow.decode_of_selects 0x4 0xFF (by decide) (by decide) h
    exact ⟨.rdstat, by rw [hd, eq_zero_of_and_allOnes_eq_zero harg]; rfl, rfl⟩
  · obtain ⟨hd, -⟩ := OpcodeRow.decode_of_selects 0x5 0x00 (by decide) (by decide) h
    exact ⟨.wrstat _, hd, rfl⟩
  · obtain ⟨hd, -⟩ := OpcodeRow.decode_of_selects 0x6 0x00 (by decide) (by decide) h
    exact ⟨.wrbyte _, hd, rfl⟩
  · obtain ⟨hd, harg⟩ := OpcodeRow.decode_of_selects 0x7 0xFE (by decide) (by decide) h
    exact ⟨.rdbyte _, hd.trans (if_pos (extractLsb'_eq_zero_of_and_eq_zero (by decide) harg)), rfl⟩

/-- Every command's word is selected by the row of its mnemonic (R92). -/
theorem exists_row_selects_encode : ∀ i : Instr, Laws.TableRow.Statement i
  | .start => Laws.TableRow.start
  | .connreset => Laws.TableRow.connreset
  | .meas sel hook => Laws.TableRow.meas sel hook
  | .rdstat => Laws.TableRow.rdstat
  | .wrstat value => Laws.TableRow.wrstat value
  | .wrbyte value => Laws.TableRow.wrbyte value
  | .rdbyte ack => Laws.TableRow.rdbyte ack

theorem row_eq_of_mnemonic_eq :
    ∀ row ∈ opcodeMap, ∀ row' ∈ opcodeMap, row'.mnemonic = row.mnemonic → row' = row := by decide

/-- A row selects the words of its commands: the word is the command's encoding, and the row is the
one of the command's mnemonic. -/
theorem selects_of_decode {w : Word} {row : OpcodeRow} {i : Instr} (hrow : row ∈ opcodeMap)
    (hd : decode w = .command i) (hm : mnemonicOf i = row.mnemonic) : row.selects w = true := by
  obtain ⟨row', hrow', hm', hsel⟩ := exists_row_selects_encode i
  obtain rfl := row_eq_of_mnemonic_eq row hrow row' hrow' (hm'.trans hm)
  rwa [encode_of_decode hd] at hsel

/-- Two rows that select one word have the mnemonic of the one command it decodes to. -/
theorem row_eq_of_selects {w : Word} {row row' : OpcodeRow} (hrow : row ∈ opcodeMap)
    (hrow' : row' ∈ opcodeMap) (h : row.selects w = true) (h' : row'.selects w = true) :
    row' = row := by
  obtain ⟨i, hd, hm⟩ := exists_command_of_selects hrow h
  obtain ⟨i', hd', hm'⟩ := exists_command_of_selects hrow' h'
  obtain rfl : i' = i := Decoded.command.inj (hd'.symm.trans hd)
  exact row_eq_of_mnemonic_eq row hrow row' hrow' (hm'.symm.trans hm)

/-- Settles O5: selected words decode to the row's command, decoded words are encodings that the row
selects, and the decoder's one answer makes the rows disjoint. -/
theorem opcodeRowSelectsExactlyItsCommands : Obligations.OpcodeRowSelectsExactlyItsCommands := by
  intro w row hrow
  refine ⟨⟨exists_command_of_selects hrow, ?decoded⟩, fun row' hrow' => row_eq_of_selects hrow hrow'⟩
  case decoded =>
    rintro ⟨i, hd, hm⟩
    exact selects_of_decode hrow hd hm

end Sys2Proof
end

section
/-! SUPPORT. Runs of the block alone: the steps that lead from one state to another, and the waits and the pulse of the clock
(R34, R121, R127). -/

namespace Sys2Proof.Machine

/-- Some number of steps leads from the first state to the second. -/
def Reaches (s t : State) : Prop := ∃ k, Host.Core.run core k s = .next t

theorem Reaches.refl (s : State) : Reaches s s := ⟨0, run_zero s⟩

theorem Reaches.trans {s t u : State} : Reaches s t → Reaches t u → Reaches s u
  | ⟨j, hj⟩, ⟨k, hk⟩ => ⟨j + k, (run_add hj).trans hk⟩

theorem run_one (s : State) : Host.Core.run core 1 s = step s := by
  have h : core.step s = step s := rfl
  simp only [Host.Core.run, h]
  cases step s <;> rfl

/-- The sequencer is free to execute its next statement: no reset, no yield, no WAIT in progress, and the
host does nothing (R34, R250). Which statement comes next, the stack says. -/
def State.sequencing (s : State) : Prop :=
  s.pins.rst = false ∧ s.stat.yieldReq = false ∧ s.work.wcnt = 0 ∧ s.alone

section Steps
variable {s t : State} {f : Frame} {rest : List Frame}

/-- A step of the block alone executes the statement at the top label. -/
theorem State.sequencing.step_goto (hs : s.sequencing) :
    step (s.goto f rest) = statement f rest (s.goto f rest) := by
  obtain ⟨hrst, hyield, hwcnt, hag⟩ := hs
  have hmove : step (s.goto f rest) = blockMove (s.goto f rest) := by
    simp only [step, nextMove, State.goto_world, show s.world.agenda = [] from hag]
  rw [hmove]
  simp [blockMove, hrst, hyield, hwcnt]

theorem State.sequencing.reaches (hs : s.sequencing)
    (h : statement f rest (s.goto f rest) = .next t) : Reaches (s.goto f rest) t :=
  ⟨1, (run_one _).trans (hs.step_goto.trans h)⟩

/-! ### WAIT (R121) -/

theorem step_waiting (hrst : s.pins.rst = false) (hyield : s.stat.yieldReq = false) (hag : s.alone)
    (hw : 0 < s.work.wcnt) : step s = waitTick s := by
  simp only [step, nextMove, show s.world.agenda = [] from hag]
  simp [blockMove, hrst, hyield, hw]

/-- The ticks of a running WAIT pass one by one, and with the last one the label moves on. -/
theorem run_waiting (n : Nat) (hrst : s.pins.rst = false) (hyield : s.stat.yieldReq = false)
    (hag : s.alone) :
    Host.Core.run core (n + 1) { s with work := { s.work with wcnt := n + 1 } } =
      leaveDelay { s with ticks := s.ticks + (n + 1), work := { s.work with wcnt := 0 } } := by
  induction n generalizing s with
  | zero => exact (run_one _).trans (step_waiting hrst hyield hag Nat.one_pos)
  | succ n ih =>
    have hnext := step_waiting (s := { s with work := { s.work with wcnt := n + 2 } }) hrst hyield hag
      (Nat.succ_pos _)
    refine (run_succ hnext).trans ((ih (s := s.tick) hrst hyield hag).trans (congrArg leaveDelay ?sum))
    case sum => simp only [State.tick, Nat.add_assoc, Nat.add_comm 1]

/-- A statement that starts a WAIT has its big-step effect (R121), and then the label moves on. -/
theorem State.sequencing.run_wait (hs : s.sequencing) {n : Nat}
    (h : statement f rest (s.goto f rest) = startWait n (s.goto f rest)) :
    Host.Core.run core (n + 1) (s.goto f rest) = leaveDelay (bigWait n (s.goto f rest)) := by
  cases n with
  | zero => exact (run_one _).trans (hs.step_goto.trans h)
  | succ n =>
    have hstart := hs.step_goto.trans h
    obtain ⟨hrst, hyield, -, hag⟩ := hs
    exact (run_succ hstart).trans
      (run_waiting (s := (s.goto f rest).record (.wait (n + 1))) n hrst hyield hag)

theorem State.sequencing.after_bigWait (hs : s.sequencing) (n : Nat) : (bigWait n s).sequencing := by
  obtain ⟨hrst, hyield, -, hag⟩ := hs
  exact ⟨hrst, hyield, rfl, hag⟩

/-! ### PULSE (R127) -/

theorem bigPulse_eq (l : Level) (s : State) :
    bigPulse l s =
      { s with
        line := { s.line with sckO := l }
        work := { s.work with l := l, wcnt := 0 }
        ticks := s.ticks + 7
        trace := (pulseEvents s.ticks l).reverse ++ s.trace } := rfl

/-- A called PULSE has its big-step effect in ten steps, three of them statements and seven ticks, and
then returns. -/
theorem State.sequencing.run_callPulse (hs : s.sequencing) (l : Level) :
    Host.Core.run core 10 (s.callPulse l) = finish (bigPulse l s) s.ctl := by
  let s1 : State := { s with work := { s.work with l := l } }
  let s2 := bigWait Config.setupTicks s1
  let s3 := s2.sck l
  have hs1 : s1.sequencing := hs
  have hs2 : s2.sequencing := hs1.after_bigWait Config.setupTicks
  have hs3 : s3.sequencing := hs2
  have hsetup : Host.Core.run core 3 (s.callPulse l) = .next (s2.goto (.pulse .p2) s.ctl) :=
    hs1.run_wait (f := .pulse .p1) rfl
  have hclock : Host.Core.run core 1 (s2.goto (.pulse .p2) s.ctl) = .next (s3.goto (.pulse .p3) s.ctl) :=
    (run_one _).trans hs2.step_goto
  have hhold : Host.Core.run core 6 (s3.goto (.pulse .p3) s.ctl) =
      finish (bigWait Config.holdTicks (s3.goto (.pulse .p3) s.ctl)) s.ctl := hs3.run_wait rfl
  rw [show (10 : Nat) = 3 + (1 + 6) from rfl, run_add hsetup, run_add hclock, hhold]
  exact finish_ctl_irrelevant (bigPulse l s) _ _

/-! ### Calls of PULSE and RELEASE from a statement (R34 (c)) -/

theorem State.sequencing.after_bigPulse (hs : s.sequencing) (l : Level) : (bigPulse l s).sequencing := by
  obtain ⟨hrst, hyield, -, hag⟩ := hs
  exact ⟨hrst, hyield, rfl, hag⟩

theorem State.sequencing.reaches_pulse (hs : s.sequencing) {l : Level}
    (hcall : statement f rest (s.goto f rest) = .next ((s.goto f rest).callPulse l))
    (hret : finish (bigPulse l s) (f :: rest) = .next t) : Reaches (s.goto f rest) t := by
  have hrun := State.sequencing.run_callPulse (s := s.goto f rest) hs l
  have hfinish := finish_ctl_irrelevant (bigPulse l s) (f :: rest) (f :: rest)
  exact (hs.reaches hcall).trans ⟨10, hrun.trans (hfinish.trans hret)⟩

theorem State.sequencing.reaches_release (hs : s.sequencing)
    (hcall : statement f rest (s.goto f rest) = .next (s.goto f rest).callRelease)
    (hret : finish (bigRelease s) (f :: rest) = .next t) : Reaches (s.goto f rest) t := by
  have hrelease : finish (bigRelease (s.goto .release (f :: rest))) (f :: rest) = .next t :=
    (finish_ctl_irrelevant (bigRelease s) (.release :: f :: rest) (f :: rest)).trans hret
  exact (hs.reaches hcall).trans (hs.reaches hrelease)

end Steps

end Sys2Proof.Machine
end

section
/-! SUPPORT. WRBYTE and RDBYTE run step by step to their big-step effect, at any call site (R35, R141, R143). -/

namespace Sys2Proof.Machine

variable {s t : State} {rest : List Frame}

/-- The state with the loop counter `i` at bit `m` (R141 W2, R143 B2). -/
def State.atBit (m : Nat) (s : State) : State := { s with work := { s.work with i := m } }

/-! ### These statements leave the sequencer free to go on -/

theorem State.sequencing.after_atBit (hs : s.sequencing) (m : Nat) : (s.atBit m).sequencing := hs
theorem State.sequencing.after_sda (hs : s.sequencing) (l : Level) : (s.sda l).sequencing := hs
theorem State.sequencing.after_sdaDir (hs : s.sequencing) (d : Dir) : (s.sdaDir d).sequencing := hs
theorem State.sequencing.after_sampleE (hs : s.sequencing) : (sampleE s).sequencing := hs
theorem State.sequencing.after_sampleR (hs : s.sequencing) : (sampleR s).sequencing := hs

/-! ### WRBYTE (R141) -/

/-- One body of the loop W2, for bit `m`: W2a to W2c. -/
def writeBit (m : Nat) (s : State) : State :=
  bigPulse .low (bigPulse .high ((s.atBit m).sda (bitLevel s.work.v m)))

/-- The acknowledge slot of a write frame: W3 to W6. -/
def writeAck (s : State) : State := bigPulse .low (sampleE (bigPulse .high (bigRelease s)))

theorem bigWriteBits_succ (m : Nat) (s : State) :
    bigWriteBits (m + 1) s = bigWriteBits m (writeBit m s) := rfl

theorem bigWrbyte_eq_writeAck (v : Byte) (s : State) :
    bigWrbyte v s =
      writeAck (bigWriteBits 8 (State.sdaDir .driven { s with work := { s.work with v := v } })) := rfl

theorem State.sequencing.after_writeBit (hs : s.sequencing) (m : Nat) : (writeBit m s).sequencing :=
  (((hs.after_atBit m).after_sda _).after_bigPulse .high).after_bigPulse .low

theorem State.sequencing.after_bigWriteBits (m : Nat) (hs : s.sequencing) :
    (bigWriteBits m s).sequencing := by
  induction m generalizing s with
  | zero => exact hs
  | succ m ih => exact ih (hs.after_writeBit m)

theorem State.sequencing.after_writeAck (hs : s.sequencing) : (writeAck s).sequencing :=
  ((hs.after_sdaDir .released).after_bigPulse .high).after_sampleE.after_bigPulse .low

theorem State.sequencing.after_bigWrbyte (hs : s.sequencing) (v : Byte) : (bigWrbyte v s).sequencing :=
  have hs1 : (State.sdaDir .driven { s with work := { s.work with v := v } }).sequencing := hs
  (hs1.after_bigWriteBits 8).after_writeAck

theorem State.sequencing.reaches_writeBit (hs : s.sequencing) {m : Nat}
    (hloop : loopW2 rest (writeBit m s) = .next t) :
    Reaches ((s.atBit m).goto (.wrbyte .w2a) rest) t := by
  let s1 := (s.atBit m).sda (bitLevel s.work.v m)
  let s2 := bigPulse .high s1
  have hs0 : (s.atBit m).sequencing := hs
  have hs1 : s1.sequencing := hs0.after_sda _
  have hs2 : s2.sequencing := hs1.after_bigPulse .high
  have hw2a : Reaches ((s.atBit m).goto (.wrbyte .w2a) rest) (s1.goto (.wrbyte .w2b) rest) :=
    hs0.reaches rfl
  have hw2b : Reaches (s1.goto (.wrbyte .w2b) rest) (s2.goto (.wrbyte .w2c) rest) :=
    hs1.reaches_pulse rfl rfl
  have hw2c : Reaches (s2.goto (.wrbyte .w2c) rest) t := hs2.reaches_pulse rfl hloop
  exact hw2a.trans (hw2b.trans hw2c)

/-- The loop W2 from bit `m` down runs to its big-step effect. -/
theorem State.sequencing.reaches_bigWriteBits (m : Nat) (hs : s.sequencing) :
    Reaches ((s.atBit m).goto (.wrbyte .w2a) rest)
      ((bigWriteBits (m + 1) s).goto (.wrbyte .w3) rest) := by
  induction m generalizing s with
  | zero => exact hs.reaches_writeBit rfl
  | succ m ih => exact (hs.reaches_writeBit rfl).trans (ih (hs.after_writeBit (m + 1)))

theorem State.sequencing.reaches_writeAck (hs : s.sequencing)
    (hret : finish (writeAck s) rest = .next t) : Reaches (s.goto (.wrbyte .w3) rest) t := by
  let s3 := bigRelease s
  let s4 := bigPulse .high s3
  let s5 := sampleE s4
  have hs3 : s3.sequencing := hs.after_sdaDir .released
  have hs4 : s4.sequencing := hs3.after_bigPulse .high
  have hs5 : s5.sequencing := hs4.after_sampleE
  have hw3 : Reaches (s.goto (.wrbyte .w3) rest) (s3.goto (.wrbyte .w4) rest) :=
    hs.reaches_release rfl rfl
  have hw4 : Reaches (s3.goto (.wrbyte .w4) rest) (s4.goto (.wrbyte .w5) rest) :=
    hs3.reaches_pulse rfl rfl
  have hw5 : Reaches (s4.goto (.wrbyte .w5) rest) (s5.goto (.wrbyte .w6) rest) := hs4.reaches rfl
  have hw6 : Reaches (s5.goto (.wrbyte .w6) rest) t := hs5.reaches_pulse rfl hret
  exact hw3.trans (hw4.trans (hw5.trans hw6))

/-- A called WRBYTE runs to its big-step effect and returns. -/
theorem State.sequencing.reaches_callWrbyte (hs : s.sequencing) {v : Byte}
    (hret : finish (bigWrbyte v s) s.ctl = .next t) : Reaches (s.callWrbyte v) t := by
  let s0 : State := { s with work := { s.work with v := v } }
  let s1 := s0.sdaDir .driven
  have hs0 : s0.sequencing := hs
  have hs1 : s1.sequencing := hs0.after_sdaDir .driven
  have hw1 : Reaches (s.callWrbyte v) (s1.goto (.wrbyte .w2) s.ctl) :=
    hs0.reaches (f := .wrbyte .w1) rfl
  have hw2 : Reaches (s1.goto (.wrbyte .w2) s.ctl) ((s1.atBit 7).goto (.wrbyte .w2a) s.ctl) :=
    hs1.reaches rfl
  have hloop : Reaches ((s1.atBit 7).goto (.wrbyte .w2a) s.ctl)
      ((bigWriteBits 8 s1).goto (.wrbyte .w3) s.ctl) := hs1.reaches_bigWriteBits 7
  have hack : Reaches ((bigWriteBits 8 s1).goto (.wrbyte .w3) s.ctl) t :=
    (hs1.after_bigWriteBits 8).reaches_writeAck hret
  exact hw1.trans (hw2.trans (hloop.trans hack))

/-! ### RDBYTE (R143) -/

/-- One body of the loop B2, for bit `m`: B2a to B2c. -/
def readBit (m : Nat) (s : State) : State :=
  bigPulse .low (sampleR (bigPulse .high (s.atBit m)))

/-- The acknowledge slot of a read frame with the operand `a`: B3 to B7. -/
def readAck (a : Level) (s : State) : State :=
  bigRelease (bigPulse .low (bigPulse .high (State.sda (!a) (s.sdaDir .driven))))

theorem bigReadBits_succ (m : Nat) (s : State) :
    bigReadBits (m + 1) s = bigReadBits m (readBit m s) := rfl

theorem bigRdbyte_eq_readAck (a : Level) (s : State) :
    bigRdbyte a s =
      readAck a (bigReadBits 8 { s with work := { s.work with a := a, r := 0x00 } }) := rfl

@[simp] theorem readBit_work_a (m : Nat) (s : State) : (readBit m s).work.a = s.work.a := by
  simp [readBit, sampleR, bigPulse_eq, State.atBit]

@[simp] theorem bigReadBits_work_a (m : Nat) (s : State) : (bigReadBits m s).work.a = s.work.a := by
  induction m generalizing s with
  | zero => rfl
  | succ m ih => rw [bigReadBits_succ, ih, readBit_work_a]

theorem State.sequencing.after_readBit (hs : s.sequencing) (m : Nat) : (readBit m s).sequencing :=
  ((hs.after_atBit m).after_bigPulse .high).after_sampleR.after_bigPulse .low

theorem State.sequencing.after_bigReadBits (m : Nat) (hs : s.sequencing) :
    (bigReadBits m s).sequencing := by
  induction m generalizing s with
  | zero => exact hs
  | succ m ih => exact ih (hs.after_readBit m)

theorem State.sequencing.after_readAck (hs : s.sequencing) (a : Level) : (readAck a s).sequencing :=
  ((((hs.after_sdaDir .driven).after_sda _).after_bigPulse .high).after_bigPulse .low).after_sdaDir _

theorem State.sequencing.after_bigRdbyte (hs : s.sequencing) (a : Level) : (bigRdbyte a s).sequencing :=
  have hs1 : ({ s with work := { s.work with a := a, r := 0x00 } } : State).sequencing := hs
  (hs1.after_bigReadBits 8).after_readAck a

theorem State.sequencing.reaches_readBit (hs : s.sequencing) {m : Nat}
    (hloop : loopB2 rest (readBit m s) = .next t) :
    Reaches ((s.atBit m).goto (.rdbyte .b2a) rest) t := by
  let s1 := bigPulse .high (s.atBit m)
  let s2 := sampleR s1
  have hs0 : (s.atBit m).sequencing := hs
  have hs1 : s1.sequencing := hs0.after_bigPulse .high
  have hs2 : s2.sequencing := hs1.after_sampleR
  have hb2a : Reaches ((s.atBit m).goto (.rdbyte .b2a) rest) (s1.goto (.rdbyte .b2b) rest) :=
    hs0.reaches_pulse rfl rfl
  have hb2b : Reaches (s1.goto (.rdbyte .b2b) rest) (s2.goto (.rdbyte .b2c) rest) := hs1.reaches rfl
  have hb2c : Reaches (s2.goto (.rdbyte .b2c) rest) t := hs2.reaches_pulse rfl hloop
  exact hb2a.trans (hb2b.trans hb2c)

/-- The loop B2 from bit `m` down runs to its big-step effect. -/
theorem State.sequencing.reaches_bigReadBits (m : Nat) (hs : s.sequencing) :
    Reaches ((s.atBit m).goto (.rdbyte .b2a) rest)
      ((bigReadBits (m + 1) s).goto (.rdbyte .b3) rest) := by
  induction m generalizing s with
  | zero => exact hs.reaches_readBit rfl
  | succ m ih => exact (hs.reaches_readBit rfl).trans (ih (hs.after_readBit (m + 1)))

theorem State.sequencing.reaches_readAck (hs : s.sequencing) {a : Level} (ha : s.work.a = a)
    (hret : finish (readAck a s) rest = .next t) : Reaches (s.goto (.rdbyte .b3) rest) t := by
  subst ha
  let s3 := s.sdaDir .driven
  let s4 := s3.sda (!s.work.a)
  let s5 := bigPulse .high s4
  let s6 := bigPulse .low s5
  have hs3 : s3.sequencing := hs.after_sdaDir .driven
  have hs4 : s4.sequencing := hs3.after_sda _
  have hs5 : s5.sequencing := hs4.after_bigPulse .high
  have hs6 : s6.sequencing := hs5.after_bigPulse .low
  have hb3 : Reaches (s.goto (.rdbyte .b3) rest) (s3.goto (.rdbyte .b4) rest) := hs.reaches rfl
  have hb4 : Reaches (s3.goto (.rdbyte .b4) rest) (s4.goto (.rdbyte .b5) rest) := hs3.reaches rfl
  have hb5 : Reaches (s4.goto (.rdbyte .b5) rest) (s5.goto (.rdbyte .b6) rest) :=
    hs4.reaches_pulse rfl rfl
  have hb6 : Reaches (s5.goto (.rdbyte .b6) rest) (s6.goto (.rdbyte .b7) rest) :=
    hs5.reaches_pulse rfl rfl
  have hb7 : Reaches (s6.goto (.rdbyte .b7) rest) t := hs6.reaches_release rfl hret
  exact hb3.trans (hb4.trans (hb5.trans (hb6.trans hb7)))

/-- A called RDBYTE runs to its big-step effect and returns. -/
theorem State.sequencing.reaches_callRdbyte (hs : s.sequencing) {a : Level}
    (hret : finish (bigRdbyte a s) s.ctl = .next t) : Reaches (s.callRdbyte a) t := by
  let s0 : State := { s with work := { s.work with a := a } }
  let s1 : State := { s0 with work := { s0.work with r := 0x00 } }
  have hs0 : s0.sequencing := hs
  have hs1 : s1.sequencing := hs
  have hb1 : Reaches (s.callRdbyte a) (s1.goto (.rdbyte .b2) s.ctl) :=
    hs0.reaches (f := .rdbyte .b1) rfl
  have hb2 : Reaches (s1.goto (.rdbyte .b2) s.ctl) ((s1.atBit 7).goto (.rdbyte .b2a) s.ctl) :=
    hs1.reaches rfl
  have hloop : Reaches ((s1.atBit 7).goto (.rdbyte .b2a) s.ctl)
      ((bigReadBits 8 s1).goto (.rdbyte .b3) s.ctl) := hs1.reaches_bigReadBits 7
  have hack : Reaches ((bigReadBits 8 s1).goto (.rdbyte .b3) s.ctl) t :=
    (hs1.after_bigReadBits 8).reaches_readAck (bigReadBits_work_a 8 s1) hret
  exact hb1.trans (hb2.trans (hloop.trans hack))

end Sys2Proof.Machine
end

section
/-! SUPPORT. What a byte frame leaves behind, in closed form: the wire formats of R96 and R97, the time, and the
registers. -/

namespace Sys2Proof.Machine

/-! ### The data slots of a frame, the first slot apart from the rest -/

/-- The `m` low bits of a byte in slot order (R65): the levels the device presents in a read frame. -/
def dataBits (v : Byte) (m : Nat) : List Level := (List.range m).map (fun j => v.getLsbD (m - 1 - j))

/-- The slots of a write frame that send the `m` low bits of a byte (R96). -/
def dataWrites (t : Nat) (v : Byte) (m : Nat) : List LineEvent :=
  (List.range m).flatMap (fun j => ⟨t + 14 * j, .sda (v.getLsbD (m - 1 - j))⟩ :: slotEvents (t + 14 * j))

/-- The slots of a read frame that receive the `m` low bits of a byte (R97). -/
def dataReads (t : Nat) (v : Byte) (m : Nat) : List LineEvent :=
  (List.range m).flatMap (fun j =>
    pulseEvents (t + 14 * j) .high ++ [⟨t + 14 * j + 7, .sample (v.getLsbD (m - 1 - j))⟩] ++
      pulseEvents (t + 14 * j + 7) .low)

theorem dataBits_eight (v : Byte) : dataBits v 8 = levelsOf v := rfl

theorem writeFrame_eq (t : Nat) (v : Byte) (e : Level) :
    writeFrame t v e = [⟨t, .sdaDir .driven⟩] ++ dataWrites t v 8 ++ [⟨t + 112, .sdaDir .released⟩] ++
      pulseEvents (t + 112) .high ++ [⟨t + 119, .sample e⟩] ++ pulseEvents (t + 119) .low := rfl

theorem readFrame_eq (t : Nat) (v : Byte) (a : Level) :
    readFrame t v a = dataReads t v 8 ++ [⟨t + 112, .sdaDir .driven⟩, ⟨t + 112, .sda (!a)⟩] ++
      slotEvents (t + 112) ++ [⟨t + 126, .sdaDir .released⟩] := rfl

theorem dataBits_succ (v : Byte) (m : Nat) : dataBits v (m + 1) = v.getLsbD m :: dataBits v m := by
  simp [dataBits, List.range_succ_eq_map, Nat.sub_sub, Nat.add_comm]

theorem dataWrites_succ (t : Nat) (v : Byte) (m : Nat) :
    dataWrites t v (m + 1) = ⟨t, .sda (v.getLsbD m)⟩ :: slotEvents t ++ dataWrites (t + 14) v m := by
  simp [dataWrites, List.range_succ_eq_map, List.flatMap_map, Nat.sub_sub, Nat.mul_add, Nat.add_assoc,
    Nat.add_comm]

theorem dataReads_succ (t : Nat) (v : Byte) (m : Nat) :
    dataReads t v (m + 1) =
      pulseEvents t .high ++ [⟨t + 7, .sample (v.getLsbD m)⟩] ++ pulseEvents (t + 7) .low ++
        dataReads (t + 14) v m := by
  simp [dataReads, List.range_succ_eq_map, List.flatMap_map, Nat.sub_sub, Nat.mul_add, Nat.add_assoc,
    Nat.add_comm, Nat.add_left_comm]

/-! ### Samples (R23, R126) and the shift form of byte assembly (R102) -/

theorem State.answer_of_cons {s : State} {b : Level} {as : List Level} (h : s.world.answers = b :: as) :
    s.answer = b := by
  simp [State.answer, h]

theorem World.used_used (w : World) (m n : Nat) (as as' : List Level) :
    (w.used m as).used n as' = w.used (m + n) as' := by
  simp [World.used, Nat.add_assoc]

theorem State.sampled_of_cons {s : State} {b : Level} {as : List Level} (h : s.world.answers = b :: as) :
    s.sampled = { s.record (.sample b) with world := s.world.used 1 as } := by
  simp only [State.sampled, State.answer_of_cons h, h, List.tail_cons, World.used]

theorem sampleE_of_cons {s : State} {b : Level} {as : List Level} (h : s.world.answers = b :: as) :
    sampleE s =
      { s.record (.sample b) with work := { s.work with e := b }, world := s.world.used 1 as } := by
  rw [sampleE, State.sampled_of_cons h, State.answer_of_cons h]

theorem sampleR_of_cons {s : State} {b : Level} {as : List Level} (h : s.world.answers = b :: as) :
    sampleR s =
      { s.record (.sample b) with
        work := { s.work with r := shiftIn s.work.r b }, world := s.world.used 1 as } := by
  rw [sampleR, State.sampled_of_cons h, State.answer_of_cons h]

/-- Shifting in bit `m` of a byte below the bits above it gives the bits from `m` up. -/
theorem shiftIn_ushiftRight (v : Byte) (m : Nat) : shiftIn (v >>> (m + 1)) (v.getLsbD m) = v >>> m := by
  ext i hi
  cases i with
  | zero => simp [shiftIn]
  | succ i => simp [shiftIn, Nat.add_assoc, Nat.add_comm 1]

/-! ### WRBYTE (R141) -/

theorem writeBit_eq (m : Nat) (s : State) :
    writeBit m s =
      { s with
        line := { s.line with sckO := .low, sdaO := s.work.v.getLsbD m }
        work := { s.work with i := m, l := .low, wcnt := 0 }
        ticks := s.ticks + 14
        trace := (⟨s.ticks, .sda (s.work.v.getLsbD m)⟩ :: slotEvents s.ticks).reverse ++ s.trace } := by
  simp [writeBit, bigPulse_eq, bitLevel, State.sda, State.atBit, State.record, slotEvents]

/-- The loop W2 from bit `m` down sends the `m + 1` low bits of `v`. -/
theorem bigWriteBits_eq (m : Nat) (s : State) :
    bigWriteBits (m + 1) s =
      { s with
        line := { s.line with sckO := .low, sdaO := s.work.v.getLsbD 0 }
        work := { s.work with i := 0, l := .low, wcnt := 0 }
        ticks := s.ticks + 14 * (m + 1)
        trace := (dataWrites s.ticks s.work.v (m + 1)).reverse ++ s.trace } := by
  induction m generalizing s with
  | zero => rfl
  | succ m ih =>
    have hticks : s.ticks + 14 + 14 * (m + 1) = s.ticks + 14 * (m + 2) := by omega
    rw [bigWriteBits_succ, ih, writeBit_eq, dataWrites_succ s.ticks]
    simp only [hticks, List.reverse_append, List.append_assoc]

theorem writeAck_eq {s : State} {e : Level} {as : List Level} (h : s.world.answers = e :: as) :
    writeAck s =
      { s with
        line := { s.line with sckO := .low, sdaOe := .released }
        work := { s.work with e := e, l := .low, wcnt := 0 }
        ticks := s.ticks + 14
        trace := ([(⟨s.ticks, .sdaDir .released⟩ : LineEvent)] ++ pulseEvents s.ticks .high ++
          [(⟨s.ticks + 7, .sample e⟩ : LineEvent)] ++ pulseEvents (s.ticks + 7) .low).reverse ++ s.trace
        world := s.world.used 1 as } := by
  have hrise : (bigPulse .high (bigRelease s)).world.answers = e :: as := h
  rw [writeAck, sampleE_of_cons hrise]
  simp [bigPulse_eq, bigRelease, State.sdaDir, State.record]

/-- A WRBYTE answered with `e` sends the write frame of R96 and leaves `e` in its register; TEMP, HUMI,
STAT, CFG, RDATA and every other register stay. -/
theorem bigWrbyte_eq {s : State} {v : Byte} {e : Level} {as : List Level}
    (h : s.world.answers = e :: as) :
    bigWrbyte v s =
      { s with
        line := ⟨.low, s.line.sckOe, v.getLsbD 0, .released⟩
        work := { s.work with v := v, e := e, i := 0, l := .low, wcnt := 0 }
        ticks := s.ticks + 126
        trace := (writeFrame s.ticks v e).reverse ++ s.trace
        world := s.world.used 1 as } := by
  rw [bigWrbyte_eq_writeAck, bigWriteBits_eq, writeAck_eq (e := e) (as := as) ?answer, writeFrame_eq]
  case answer => exact h
  simp [State.sdaDir, State.record, Nat.add_assoc]

/-! ### RDBYTE (R143) -/

theorem readBit_eq {m : Nat} {s : State} {v : Byte} {as : List Level}
    (hans : s.world.answers = v.getLsbD m :: as) (hr : s.work.r = v >>> (m + 1)) :
    readBit m s =
      { s with
        line := { s.line with sckO := .low }
        work := { s.work with r := v >>> m, i := m, l := .low, wcnt := 0 }
        ticks := s.ticks + 14
        trace := (pulseEvents s.ticks .high ++ [(⟨s.ticks + 7, .sample (v.getLsbD m)⟩ : LineEvent)] ++
          pulseEvents (s.ticks + 7) .low).reverse ++ s.trace
        world := s.world.used 1 as } := by
  have hrise : (bigPulse .high (s.atBit m)).world.answers = v.getLsbD m :: as := hans
  have hshift : shiftIn (bigPulse .high (s.atBit m)).work.r (v.getLsbD m) = v >>> m := by
    rw [← shiftIn_ushiftRight, ← hr, bigPulse_eq, State.atBit]
  rw [readBit, sampleR_of_cons hrise, hshift]
  simp [bigPulse_eq, State.record, State.atBit]

/-- The loop B2 from bit `m` down receives the `m + 1` low bits of `v` below the bits that `r` holds. -/
theorem bigReadBits_eq {m : Nat} {s : State} {v : Byte} {as : List Level}
    (hans : s.world.answers = dataBits v (m + 1) ++ as) (hr : s.work.r = v >>> (m + 1)) :
    bigReadBits (m + 1) s =
      { s with
        line := { s.line with sckO := .low }
        work := { s.work with r := v, i := 0, l := .low, wcnt := 0 }
        ticks := s.ticks + 14 * (m + 1)
        trace := (dataReads s.ticks v (m + 1)).reverse ++ s.trace
        world := s.world.used (m + 1) as } := by
  induction m generalizing s with
  | zero => exact readBit_eq hans hr
  | succ m ih =>
    have hticks : s.ticks + 14 + 14 * (m + 1) = s.ticks + 14 * (m + 2) := by omega
    rw [dataBits_succ] at hans
    rw [bigReadBits_succ, readBit_eq hans hr, ih rfl rfl, dataReads_succ s.ticks]
    simp only [hticks, List.reverse_append, List.append_assoc, World.used_used, Nat.add_comm 1]

theorem readAck_eq (a : Level) (s : State) :
    readAck a s =
      { s with
        line := ⟨.low, s.line.sckOe, !a, .released⟩
        work := { s.work with l := .low, wcnt := 0 }
        ticks := s.ticks + 14
        trace := ([(⟨s.ticks, .sdaDir .driven⟩ : LineEvent), ⟨s.ticks, .sda (!a)⟩] ++
          slotEvents s.ticks ++ [(⟨s.ticks + 14, .sdaDir .released⟩ : LineEvent)]).reverse ++ s.trace } := by
  simp [readAck, bigPulse_eq, bigRelease, State.sda, State.sdaDir, State.record, slotEvents, Nat.add_assoc]

/-- A RDBYTE answered with the bits of `v` puts the read frame of R97 on the line and leaves `v` in `r`;
TEMP, HUMI, STAT, CFG, RDATA and every other register stay. -/
theorem bigRdbyte_eq {s : State} {v : Byte} {a : Level} {as : List Level}
    (h : s.world.answers = levelsOf v ++ as) :
    bigRdbyte a s =
      { s with
        line := ⟨.low, s.line.sckOe, !a, .released⟩
        work := { s.work with a := a, r := v, i := 0, l := .low, wcnt := 0 }
        ticks := s.ticks + 126
        trace := (readFrame s.ticks v a).reverse ++ s.trace
        world := s.world.used 8 as } := by
  have hans : s.world.answers = dataBits v 8 ++ as := by rw [h, dataBits_eight]
  have hr : 0#8 = v >>> 8 := by simp [BitVec.ushiftRight_eq_zero]
  rw [bigRdbyte_eq_readAck, readAck_eq,
    bigReadBits_eq (s := { s with work := { s.work with a := a, r := 0x00 } }) hans hr, readFrame_eq]
  simp [Nat.add_assoc]

end Sys2Proof.Machine
end

section
/-! PROOFS. The commands WRBYTE and RDBYTE from acceptance to completion (R142, R144). -/

namespace Sys2Proof.Machine

section Acceptance
variable {s : State}

theorem State.ready.offer (h : s.ready) (i : Instr) (x : WrapAt) : s.offer i x = s.accept i x := by
  obtain ⟨hrst, hbusy, -⟩ := h
  simp [State.offer, hrst, hbusy]

theorem State.ready.accept_sequencing (h : s.ready) (ha : s.alone) (i : Instr) (x : WrapAt) :
    (s.accept i x).sequencing := by
  obtain ⟨hrst, -, hyield, hwcnt, -⟩ := h
  exact ⟨hrst, hyield, hwcnt, ha⟩

theorem ackOperand_rdbyte (a : Bool) : ackOperand (operandByteOf (.rdbyte a)) = a := by
  cases a <;> rfl

/-- An accepted WRBYTE runs wrapper X6 to its completion (R142). -/
theorem State.ready.reaches_completeWrbyte (h : s.ready) (ha : s.alone) (v : Byte) :
    Reaches (s.accept (.wrbyte v) .x6a)
      (completeWrbyte (bigWrbyte v (s.accept (.wrbyte v) .x6a))) := by
  let t := s.accept (.wrbyte v) .x6a
  let u := bigWrbyte v t
  have ht : t.sequencing := h.accept_sequencing ha _ _
  have hu : u.sequencing := ht.after_bigWrbyte v
  have harg : t.work.arg = v := congrArg CommandFields.arg (fieldsOf_wordOf _)
  have hx6a : Reaches t (t.callWrbyte t.work.arg) := ht.reaches (f := .wrapper .x6a) (rest := []) rfl
  rw [harg] at hx6a
  have hbyte : Reaches (t.callWrbyte v) (u.goto (.wrapper .x6b) []) := ht.reaches_callWrbyte rfl
  have hx6b : Reaches (u.goto (.wrapper .x6b) []) (completeWrbyte u) := hu.reaches rfl
  exact hx6a.trans (hbyte.trans hx6b)

/-- An accepted RDBYTE runs wrapper X7 to its completion (R144). -/
theorem State.ready.reaches_completeRdbyte (h : s.ready) (ha : s.alone) (a : Bool) :
    Reaches (s.accept (.rdbyte a) .x7a)
      (completeRdbyte (bigRdbyte a (s.accept (.rdbyte a) .x7a))) := by
  let t := s.accept (.rdbyte a) .x7a
  let u := bigRdbyte a t
  have ht : t.sequencing := h.accept_sequencing ha _ _
  have hu : u.sequencing := ht.after_bigRdbyte a
  have harg : ackOperand t.work.arg = a :=
    (congrArg (fun f => ackOperand f.arg) (fieldsOf_wordOf _)).trans (ackOperand_rdbyte a)
  have hx7a : Reaches t (t.callRdbyte (ackOperand t.work.arg)) :=
    ht.reaches (f := .wrapper .x7a) (rest := []) rfl
  rw [harg] at hx7a
  have hbyte : Reaches (t.callRdbyte a) (u.goto (.wrapper .x7b) []) := ht.reaches_callRdbyte rfl
  have hx7b : Reaches (u.goto (.wrapper .x7b) []) (completeRdbyte u) := hu.reaches rfl
  exact hx7a.trans (hbyte.trans hx7b)

end Acceptance

/-- Settles O17: the accepted command runs to its big-step effect, which is the write frame. -/
theorem wrbyteCompletesWithTheWriteFrame : Obligations.WrbyteCompletesWithTheWriteFrame := by
  intro s v e as hready halone hans
  obtain ⟨k, hrun⟩ := hready.reaches_completeWrbyte halone v
  have hexec : exec (.wrbyte v) s = .next (s.accept (.wrbyte v) .x6a) :=
    congrArg _ (hready.offer (.wrbyte v) .x6a)
  refine ⟨_, k, _, hexec, rfl, hrun, ?_⟩
  obtain ⟨-, -, -, -, hctl⟩ := hready
  rw [bigWrbyte_eq (s := s.accept (.wrbyte v) .x6a) hans]
  simp only [completeWrbyte, State.doneAck, State.done, hctl]
  rfl

/-- Settles O18: the accepted command runs to its big-step effect, which is the read frame. -/
theorem rdbyteCompletesWithTheReadFrame : Obligations.RdbyteCompletesWithTheReadFrame := by
  intro s v a as hready halone hans
  obtain ⟨k, hrun⟩ := hready.reaches_completeRdbyte halone a
  have hexec : exec (.rdbyte a) s = .next (s.accept (.rdbyte a) .x7a) :=
    congrArg _ (hready.offer (.rdbyte a) .x7a)
  refine ⟨_, k, _, hexec, rfl, hrun, ?_⟩
  obtain ⟨-, -, -, -, hctl⟩ := hready
  rw [bigRdbyte_eq (s := s.accept (.rdbyte a) .x7a) hans]
  simp only [completeRdbyte, State.setRdata, State.done, hctl]
  rfl

end Sys2Proof.Machine
end

section
/-! SUPPORT. START, CONNRESET, RDSTAT and WRSTAT run step by step to their big-step effect, at any call site
(R35, R162, R164, R177, R179). -/

namespace Sys2Proof.Machine

variable {s t : State} {f : Frame} {rest : List Frame}

/-! ### The big-step procedures do not look at the stack -/

theorem bigWriteBits_goto (m : Nat) (s : State) (f : Frame) (rest : List Frame) :
    bigWriteBits m (s.goto f rest) = (bigWriteBits m s).goto f rest := by
  induction m generalizing s with
  | zero => rfl
  | succ m ih => exact ih (writeBit m s)

theorem writeAck_goto (s : State) (f : Frame) (rest : List Frame) :
    writeAck (s.goto f rest) = (writeAck s).goto f rest := rfl

theorem bigWrbyte_goto (v : Byte) (s : State) (f : Frame) (rest : List Frame) :
    bigWrbyte v (s.goto f rest) = (bigWrbyte v s).goto f rest := by
  let s0 := State.sdaDir .driven { s with work := { s.work with v := v } }
  have hwrite : bigWrbyte v (s.goto f rest) = writeAck (bigWriteBits 8 (s0.goto f rest)) :=
    bigWrbyte_eq_writeAck v (s.goto f rest)
  rw [hwrite, bigWriteBits_goto, writeAck_goto, ← bigWrbyte_eq_writeAck]

theorem bigReadBits_goto (m : Nat) (s : State) (f : Frame) (rest : List Frame) :
    bigReadBits m (s.goto f rest) = (bigReadBits m s).goto f rest := by
  induction m generalizing s with
  | zero => rfl
  | succ m ih => exact ih (readBit m s)

theorem readAck_goto (a : Level) (s : State) (f : Frame) (rest : List Frame) :
    readAck a (s.goto f rest) = (readAck a s).goto f rest := rfl

theorem bigRdbyte_goto (a : Level) (s : State) (f : Frame) (rest : List Frame) :
    bigRdbyte a (s.goto f rest) = (bigRdbyte a s).goto f rest := by
  let s0 : State := { s with work := { s.work with a := a, r := 0x00 } }
  have hread : bigRdbyte a (s.goto f rest) = readAck a (bigReadBits 8 (s0.goto f rest)) :=
    bigRdbyte_eq_readAck a (s.goto f rest)
  rw [hread, bigReadBits_goto, readAck_goto, ← bigRdbyte_eq_readAck]

theorem finish_goto (s : State) (f : Frame) (rest c : List Frame) :
    finish (s.goto f rest) c = finish s c := finish_ctl_irrelevant s (f :: rest) c

/-! ### Calls of WRBYTE and RDBYTE from a statement (R34 (c)) -/

theorem State.sequencing.reaches_wrbyte (hs : s.sequencing) {v : Byte}
    (hcall : statement f rest (s.goto f rest) = .next ((s.goto f rest).callWrbyte v))
    (hret : finish (bigWrbyte v s) (f :: rest) = .next t) : Reaches (s.goto f rest) t := by
  have hgoto : (s.goto f rest).sequencing := hs
  refine (hs.reaches hcall).trans (hgoto.reaches_callWrbyte ?returns)
  case returns => rw [bigWrbyte_goto, finish_goto]; exact hret

theorem State.sequencing.reaches_rdbyte (hs : s.sequencing) {a : Level}
    (hcall : statement f rest (s.goto f rest) = .next ((s.goto f rest).callRdbyte a))
    (hret : finish (bigRdbyte a s) (f :: rest) = .next t) : Reaches (s.goto f rest) t := by
  have hgoto : (s.goto f rest).sequencing := hs
  refine (hs.reaches hcall).trans (hgoto.reaches_callRdbyte ?returns)
  case returns => rw [bigRdbyte_goto, finish_goto]; exact hret

/-! ### START (R162) -/

/-- A START puts the start condition of R98 on the line; every register but `l` and `wcnt` stays. -/
theorem bigStart_eq (s : State) :
    bigStart s =
      { s with
        line := ⟨.low, s.line.sckOe, .low, .released⟩
        work := { s.work with l := .low, wcnt := 0 }
        ticks := s.ticks + 35
        trace := (startEvents s.ticks).reverse ++ s.trace } := by
  simp [bigStart, bigPulse_eq, bigRelease, State.sda, State.sdaDir, State.record, startEvents]

@[simp] theorem bigStart_work_arg (s : State) : (bigStart s).work.arg = s.work.arg := by
  rw [bigStart_eq]

theorem State.sequencing.after_bigStart (hs : s.sequencing) : (bigStart s).sequencing :=
  have hs3 := ((hs.after_bigPulse .low).after_sdaDir .driven).after_sda .high
  have hs6 := (((hs3.after_bigPulse .high).after_sda .low).after_bigPulse .low).after_bigPulse .high
  (hs6.after_sdaDir .released).after_bigPulse .low

/-- START at its first label runs to its big-step effect and returns. -/
theorem State.sequencing.reaches_bigStart (hs : s.sequencing)
    (hret : finish (bigStart s) rest = .next t) : Reaches (s.goto (.start .s1) rest) t := by
  let s1 := bigPulse .low s
  let s2 := s1.sdaDir .driven
  let s3 := s2.sda .high
  let s4 := bigPulse .high s3
  let s5 := s4.sda .low
  let s6 := bigPulse .low s5
  let s7 := bigPulse .high s6
  let s8 := bigRelease s7
  have hs1 : s1.sequencing := hs.after_bigPulse .low
  have hs2 : s2.sequencing := hs1.after_sdaDir .driven
  have hs3 : s3.sequencing := hs2.after_sda .high
  have hs4 : s4.sequencing := hs3.after_bigPulse .high
  have hs5 : s5.sequencing := hs4.after_sda .low
  have hs6 : s6.sequencing := hs5.after_bigPulse .low
  have hs7 : s7.sequencing := hs6.after_bigPulse .high
  have hs8 : s8.sequencing := hs7.after_sdaDir .released
  have h1 : Reaches (s.goto (.start .s1) rest) (s1.goto (.start .s2dir) rest) :=
    hs.reaches_pulse rfl rfl
  have h2dir : Reaches (s1.goto (.start .s2dir) rest) (s2.goto (.start .s2lev) rest) := hs1.reaches rfl
  have h2lev : Reaches (s2.goto (.start .s2lev) rest) (s3.goto (.start .s3) rest) := hs2.reaches rfl
  have h3 : Reaches (s3.goto (.start .s3) rest) (s4.goto (.start .s4) rest) := hs3.reaches_pulse rfl rfl
  have h4 : Reaches (s4.goto (.start .s4) rest) (s5.goto (.start .s5) rest) := hs4.reaches rfl
  have h5 : Reaches (s5.goto (.start .s5) rest) (s6.goto (.start .s6) rest) := hs5.reaches_pulse rfl rfl
  have h6 : Reaches (s6.goto (.start .s6) rest) (s7.goto (.start .s7) rest) := hs6.reaches_pulse rfl rfl
  have h7 : Reaches (s7.goto (.start .s7) rest) (s8.goto (.start .s8) rest) :=
    hs7.reaches_release rfl rfl
  have h8 : Reaches (s8.goto (.start .s8) rest) t := hs8.reaches_pulse rfl hret
  exact h1.trans (h2dir.trans (h2lev.trans (h3.trans (h4.trans (h5.trans (h6.trans (h7.trans h8)))))))

theorem bigStart_goto (s : State) (f : Frame) (rest : List Frame) :
    bigStart (s.goto f rest) = (bigStart s).goto f rest := by
  simp only [bigStart_eq]
  rfl

/-- A statement that calls START takes on its big-step effect. -/
theorem State.sequencing.reaches_start (hs : s.sequencing)
    (hcall : statement f rest (s.goto f rest) = .next ((s.goto f rest).callProc (.start .s1)))
    (hret : finish (bigStart s) (f :: rest) = .next t) : Reaches (s.goto f rest) t := by
  have hgoto : (s.goto f rest).sequencing := hs
  refine (hs.reaches hcall).trans (hgoto.reaches_bigStart ?returns)
  case returns => rw [bigStart_goto, finish_goto]; exact hret

/-! ### CONNRESET (R164) -/

/-- One body of the loop Q3, with `m` clock pulses to go after it: Q3a and Q3b. -/
def resetPulse (m : Nat) (s : State) : State :=
  bigPulse .low (bigPulse .high { s with work := { s.work with k := Config.resetPulses - m } })

theorem bigResetPulses_succ (m : Nat) (s : State) :
    bigResetPulses (m + 1) s = bigResetPulses m (resetPulse m s) := rfl

theorem State.sequencing.after_sckDir (hs : s.sequencing) (d : Dir) : (s.sckDir d).sequencing := hs

theorem State.sequencing.after_resetPulse (hs : s.sequencing) (m : Nat) : (resetPulse m s).sequencing :=
  have hs0 : ({ s with work := { s.work with k := Config.resetPulses - m } } : State).sequencing := hs
  (hs0.after_bigPulse .high).after_bigPulse .low

theorem State.sequencing.after_bigResetPulses (m : Nat) (hs : s.sequencing) :
    (bigResetPulses m s).sequencing := by
  induction m generalizing s with
  | zero => exact hs
  | succ m ih => exact ih (hs.after_resetPulse m)

theorem State.sequencing.after_bigConnreset (hs : s.sequencing) : (bigConnreset s).sequencing :=
  have hs2 := (((hs.after_sckDir .driven).after_bigPulse .low).after_sdaDir .driven).after_sda .high
  (hs2.after_bigResetPulses Config.resetPulses).after_bigStart

theorem State.sequencing.reaches_resetPulse (hs : s.sequencing) {m : Nat}
    (hloop : loopQ3 rest (resetPulse m s) = .next t) :
    Reaches (State.goto (.connreset .q3a) rest
      { s with work := { s.work with k := Config.resetPulses - m } }) t := by
  let s1 : State := { s with work := { s.work with k := Config.resetPulses - m } }
  let s2 := bigPulse .high s1
  have hs1 : s1.sequencing := hs
  have hs2 : s2.sequencing := hs1.after_bigPulse .high
  have hq3a : Reaches (s1.goto (.connreset .q3a) rest) (s2.goto (.connreset .q3b) rest) :=
    hs1.reaches_pulse rfl rfl
  have hq3b : Reaches (s2.goto (.connreset .q3b) rest) t := hs2.reaches_pulse rfl hloop
  exact hq3a.trans hq3b

theorem loopQ3_resetPulse_zero (s : State) :
    loopQ3 rest (resetPulse 0 s) = goOn (.connreset .q4) rest (resetPulse 0 s) := rfl

theorem loopQ3_resetPulse_succ {m : Nat} (hm : m + 1 < Config.resetPulses) (s : State) :
    loopQ3 rest (resetPulse (m + 1) s) =
      goOn (.connreset .q3a) rest { resetPulse (m + 1) s with
        work := { (resetPulse (m + 1) s).work with k := Config.resetPulses - m } } := by
  have hk : (resetPulse (m + 1) s).work.k = Config.resetPulses - (m + 1) := rfl
  have hlt : Config.resetPulses - (m + 1) < Config.resetPulses := by omega
  have hnext : Config.resetPulses - (m + 1) + 1 = Config.resetPulses - m := by omega
  rw [loopQ3, hk, if_pos hlt, hnext]

/-- The loop Q3 with `m` clock pulses after the next one runs to its big-step effect. -/
theorem State.sequencing.reaches_bigResetPulses (m : Nat) (hm : m < Config.resetPulses)
    (hs : s.sequencing) :
    Reaches (State.goto (.connreset .q3a) rest
        { s with work := { s.work with k := Config.resetPulses - m } })
      ((bigResetPulses (m + 1) s).goto (.connreset .q4) rest) := by
  induction m generalizing s with
  | zero => exact hs.reaches_resetPulse (loopQ3_resetPulse_zero s)
  | succ m ih =>
    exact (hs.reaches_resetPulse (loopQ3_resetPulse_succ hm s)).trans
      (ih (Nat.lt_of_succ_lt hm) (hs.after_resetPulse (m + 1)))

/-- CONNRESET at its first label runs to its big-step effect and returns. -/
theorem State.sequencing.reaches_bigConnreset (hs : s.sequencing)
    (hret : finish (bigConnreset s) rest = .next t) : Reaches (s.goto (.connreset .q1dir) rest) t := by
  let s1 := s.sckDir .driven
  let s2 := bigPulse .low s1
  let s3 := s2.sdaDir .driven
  let s4 := s3.sda .high
  let s5 := bigResetPulses Config.resetPulses s4
  have hs1 : s1.sequencing := hs.after_sckDir .driven
  have hs2 : s2.sequencing := hs1.after_bigPulse .low
  have hs3 : s3.sequencing := hs2.after_sdaDir .driven
  have hs4 : s4.sequencing := hs3.after_sda .high
  have hs5 : s5.sequencing := hs4.after_bigResetPulses Config.resetPulses
  have hq1dir : Reaches (s.goto (.connreset .q1dir) rest) (s1.goto (.connreset .q1pulse) rest) :=
    hs.reaches rfl
  have hq1pulse : Reaches (s1.goto (.connreset .q1pulse) rest) (s2.goto (.connreset .q2dir) rest) :=
    hs1.reaches_pulse rfl rfl
  have hq2dir : Reaches (s2.goto (.connreset .q2dir) rest) (s3.goto (.connreset .q2lev) rest) :=
    hs2.reaches rfl
  have hq2lev : Reaches (s3.goto (.connreset .q2lev) rest) (s4.goto (.connreset .q3) rest) :=
    hs3.reaches rfl
  have hq3 : Reaches (s4.goto (.connreset .q3) rest)
      (State.goto (.connreset .q3a) rest { s4 with work := { s4.work with k := 1 } }) := hs4.reaches rfl
  have hloop : Reaches (State.goto (.connreset .q3a) rest { s4 with work := { s4.work with k := 1 } })
      (s5.goto (.connreset .q4) rest) := hs4.reaches_bigResetPulses 8 (by decide)
  have hq4 : Reaches (s5.goto (.connreset .q4) rest) t := hs5.reaches_start rfl hret
  exact hq1dir.trans (hq1pulse.trans (hq2dir.trans (hq2lev.trans (hq3.trans (hloop.trans hq4)))))

/-! ### RDSTAT (R177) -/

/-- `e1 <- e`, the return of the first write frame of RDSTAT and of WRSTAT (R177 T2, R179 V2). -/
def State.keepE1 (s : State) : State := { s with work := { s.work with e1 := s.work.e } }

theorem bigRdstat_eq_frames (s : State) :
    bigRdstat s = bigRdbyte .low (bigWrbyte Config.statusRdCode (bigStart s)).keepE1 := rfl

theorem finish_rdstat_t2 (s : State) :
    finish s (.rdstat .t2 :: rest) = .next (s.keepE1.goto (.rdstat .t3) rest) := rfl

theorem statement_rdstat_t4 (s : State) :
    statement (.rdstat .t4) rest (s.goto (.rdstat .t4) rest) = finish s rest :=
  finish_goto s (.rdstat .t4) rest rest

theorem State.sequencing.after_keepE1 (hs : s.sequencing) : s.keepE1.sequencing := hs

theorem State.sequencing.after_bigRdstat (hs : s.sequencing) : (bigRdstat s).sequencing :=
  (hs.after_bigStart.after_bigWrbyte Config.statusRdCode).after_keepE1.after_bigRdbyte .low

/-- RDSTAT at its first label runs to its big-step effect and returns. -/
theorem State.sequencing.reaches_bigRdstat (hs : s.sequencing)
    (hret : finish (bigRdstat s) rest = .next t) : Reaches (s.goto (.rdstat .t1) rest) t := by
  rw [bigRdstat_eq_frames] at hret
  let s1 := bigStart s
  let s2 := (bigWrbyte Config.statusRdCode s1).keepE1
  let s3 := bigRdbyte .low s2
  have hs1 : s1.sequencing := hs.after_bigStart
  have hs2 : s2.sequencing := (hs1.after_bigWrbyte Config.statusRdCode).after_keepE1
  have hs3 : s3.sequencing := hs2.after_bigRdbyte .low
  have ht1 : Reaches (s.goto (.rdstat .t1) rest) (s1.goto (.rdstat .t2) rest) :=
    hs.reaches_start rfl rfl
  have ht2 : Reaches (s1.goto (.rdstat .t2) rest) (s2.goto (.rdstat .t3) rest) :=
    hs1.reaches_wrbyte rfl (finish_rdstat_t2 _)
  have ht3 : Reaches (s2.goto (.rdstat .t3) rest) (s3.goto (.rdstat .t4) rest) :=
    hs2.reaches_rdbyte rfl rfl
  have ht4 : Reaches (s3.goto (.rdstat .t4) rest) t :=
    hs3.reaches ((statement_rdstat_t4 s3).trans hret)
  exact ht1.trans (ht2.trans (ht3.trans ht4))

/-! ### WRSTAT (R179) -/

@[simp] theorem writeBit_work_arg (m : Nat) (s : State) : (writeBit m s).work.arg = s.work.arg := by
  simp [writeBit, bigPulse_eq, State.atBit]

@[simp] theorem writeAck_work_arg (s : State) : (writeAck s).work.arg = s.work.arg := by
  simp [writeAck, bigPulse_eq, bigRelease, sampleE]

@[simp] theorem bigWriteBits_work_arg (m : Nat) (s : State) :
    (bigWriteBits m s).work.arg = s.work.arg := by
  induction m generalizing s with
  | zero => rfl
  | succ m ih => rw [bigWriteBits_succ, ih, writeBit_work_arg]

@[simp] theorem bigWrbyte_work_arg (v : Byte) (s : State) : (bigWrbyte v s).work.arg = s.work.arg := by
  simp [bigWrbyte_eq_writeAck]

/-- `e2 <- e`, the return of the second write frame (R179 V3). -/
def State.keepE2 (s : State) : State := { s with work := { s.work with e2 := s.work.e } }

/-- `e <- e1 | e2`, the result of WRSTAT (R179 V4). -/
def State.orAcks (s : State) : State := { s with work := { s.work with e := s.work.e1 || s.work.e2 } }

theorem State.keepE2_orAcks (s : State) :
    s.keepE2.orAcks = { s with work := { s.work with e2 := s.work.e, e := s.work.e1 || s.work.e } } := rfl

theorem bigWrstat_eq_frames (v : Byte) (s : State) :
    bigWrstat v s =
      (bigWrbyte v (bigWrbyte Config.statusWrCode (bigStart s)).keepE1).keepE2.orAcks := by
  rw [State.keepE2_orAcks]
  rfl

theorem finish_wrstat_v2 (s : State) :
    finish s (.wrstat .v2 :: rest) = .next (s.keepE1.goto (.wrstat .v3) rest) := rfl

theorem finish_wrstat_v3 (s : State) :
    finish s (.wrstat .v3 :: rest) = .next (s.keepE2.goto (.wrstat .v4) rest) := rfl

theorem statement_wrstat_v3 {v : Byte} (harg : s.work.arg = v) :
    statement (.wrstat .v3) rest (s.goto (.wrstat .v3) rest) =
      .next ((s.goto (.wrstat .v3) rest).callWrbyte v) := by
  rw [← harg]
  rfl

theorem statement_wrstat_v4 (s : State) :
    statement (.wrstat .v4) rest (s.goto (.wrstat .v4) rest) = finish s.orAcks rest :=
  finish_goto s.orAcks (.wrstat .v4) rest rest

theorem State.sequencing.after_keepE2 (hs : s.sequencing) : s.keepE2.sequencing := hs

theorem State.sequencing.after_orAcks (hs : s.sequencing) : s.orAcks.sequencing := hs

theorem State.sequencing.after_bigWrstat (hs : s.sequencing) (v : Byte) : (bigWrstat v s).sequencing := by
  have hs2 := (hs.after_bigStart.after_bigWrbyte Config.statusWrCode).after_keepE1
  rw [bigWrstat_eq_frames]
  exact (hs2.after_bigWrbyte v).after_keepE2.after_orAcks

/-- WRSTAT at its first label sends its latched operand byte, runs to its big-step effect and returns. -/
theorem State.sequencing.reaches_bigWrstat (hs : s.sequencing) {v : Byte} (harg : s.work.arg = v)
    (hret : finish (bigWrstat v s) rest = .next t) : Reaches (s.goto (.wrstat .v1) rest) t := by
  rw [bigWrstat_eq_frames] at hret
  let s1 := bigStart s
  let s2 := (bigWrbyte Config.statusWrCode s1).keepE1
  let s3 := (bigWrbyte v s2).keepE2
  have hs1 : s1.sequencing := hs.after_bigStart
  have hs2 : s2.sequencing := (hs1.after_bigWrbyte Config.statusWrCode).after_keepE1
  have hs3 : s3.sequencing := (hs2.after_bigWrbyte v).after_keepE2
  have harg2 : s2.work.arg = v :=
    (bigWrbyte_work_arg Config.statusWrCode s1).trans ((bigStart_work_arg s).trans harg)
  have hv1 : Reaches (s.goto (.wrstat .v1) rest) (s1.goto (.wrstat .v2) rest) :=
    hs.reaches_start rfl rfl
  have hv2 : Reaches (s1.goto (.wrstat .v2) rest) (s2.goto (.wrstat .v3) rest) :=
    hs1.reaches_wrbyte rfl (finish_wrstat_v2 _)
  have hv3 : Reaches (s2.goto (.wrstat .v3) rest) (s3.goto (.wrstat .v4) rest) :=
    hs2.reaches_wrbyte (statement_wrstat_v3 harg2) (finish_wrstat_v3 _)
  have hv4 : Reaches (s3.goto (.wrstat .v4) rest) t :=
    hs3.reaches ((statement_wrstat_v4 s3).trans hret)
  exact hv1.trans (hv2.trans (hv3.trans hv4))

end Sys2Proof.Machine
end

section
/-! SUPPORT. What CONNRESET, RDSTAT and WRSTAT leave behind, in closed form: the bus reset of R99, the start condition with
the byte frames after it, the time, and the registers. -/

namespace Sys2Proof.Machine

/-! ### CONNRESET (R164) -/

/-- `m` slots with the data line held (R99). -/
def resetSlots (t m : Nat) : List LineEvent := (List.range m).flatMap (fun k => slotEvents (t + 14 * k))

theorem resetSlots_succ (t m : Nat) : resetSlots t (m + 1) = slotEvents t ++ resetSlots (t + 14) m := by
  simp [resetSlots, List.range_succ_eq_map, List.flatMap_map, Nat.mul_add, Nat.add_assoc, Nat.add_comm]

theorem busResetEvents_eq (t : Nat) :
    busResetEvents t = [⟨t, .sckDir .driven⟩] ++ pulseEvents t .low ++
      [⟨t + 7, .sdaDir .driven⟩, ⟨t + 7, .sda .high⟩] ++ resetSlots (t + 7) 9 ++
      startEvents (t + 133) := rfl

theorem resetPulse_eq (m : Nat) (s : State) :
    resetPulse m s =
      { s with
        line := { s.line with sckO := .low }
        work := { s.work with k := Config.resetPulses - m, l := .low, wcnt := 0 }
        ticks := s.ticks + 14
        trace := (slotEvents s.ticks).reverse ++ s.trace } := by
  simp [resetPulse, bigPulse_eq, slotEvents]

theorem bigResetPulses_eq (m : Nat) (s : State) :
    bigResetPulses (m + 1) s =
      { s with
        line := { s.line with sckO := .low }
        work := { s.work with k := Config.resetPulses, l := .low, wcnt := 0 }
        ticks := s.ticks + 14 * (m + 1)
        trace := (resetSlots s.ticks (m + 1)).reverse ++ s.trace } := by
  induction m generalizing s with
  | zero => exact resetPulse_eq 0 s
  | succ m ih =>
    have hticks : s.ticks + 14 + 14 * (m + 1) = s.ticks + 14 * (m + 2) := by omega
    rw [bigResetPulses_succ, ih, resetPulse_eq, resetSlots_succ s.ticks]
    simp only [hticks, List.reverse_append, List.append_assoc]

/-- A CONNRESET puts the bus reset of R99 on the line, whatever the line; every register but `k`, `l` and
`wcnt` stays. -/
theorem bigConnreset_eq (s : State) :
    bigConnreset s =
      { s with
        line := ⟨.low, .driven, .low, .released⟩
        work := { s.work with k := Config.resetPulses, l := .low, wcnt := 0 }
        ticks := s.ticks + 168
        trace := (busResetEvents s.ticks).reverse ++ s.trace } := by
  have hnine : Config.resetPulses = 8 + 1 := rfl
  rw [bigConnreset, hnine, bigResetPulses_eq, bigStart_eq, busResetEvents_eq]
  simp [hnine, bigPulse_eq, State.sckDir, State.sda, State.sdaDir, State.record, Nat.add_assoc]

/-! ### RDSTAT (R177) and WRSTAT (R179) -/

/-- A RDSTAT answered with `e` and the bits of `v` sends the start condition, the write frame of
STATUS_RD_CODE and a read frame, whatever `e` is; it leaves `v` in `r` and `e` in `e1`. -/
theorem bigRdstat_eq {s : State} {v : Byte} {e : Level} {as : List Level}
    (h : s.world.answers = e :: (levelsOf v ++ as)) :
    bigRdstat s =
      { s with
        line := ⟨.low, s.line.sckOe, .high, .released⟩
        work := { s.work with
          v := Config.statusRdCode, e := e, e1 := e, a := .low, r := v, i := 0, l := .low, wcnt := 0 }
        ticks := s.ticks + 287
        trace := (startEvents s.ticks ++ writeFrame (s.ticks + 35) Config.statusRdCode e ++
          readFrame (s.ticks + 161) v .low).reverse ++ s.trace
        world := s.world.used 9 as } := by
  have hstart : (bigStart s).world.answers = e :: (levelsOf v ++ as) := h
  rw [bigRdstat, bigWrbyte_eq hstart, bigRdbyte_eq (v := v) (as := as) rfl, bigStart_eq]
  simp [World.used_used, Nat.add_assoc]

/-- A WRSTAT answered with `e1` and `e2` sends the start condition and the write frames of STATUS_WR_CODE
and of `v`, whatever `e1` is; it leaves the OR of the two in `e`. -/
theorem bigWrstat_eq {s : State} {v : Byte} {e1 e2 : Level} {as : List Level}
    (h : s.world.answers = e1 :: e2 :: as) :
    bigWrstat v s =
      { s with
        line := ⟨.low, s.line.sckOe, v.getLsbD 0, .released⟩
        work := { s.work with
          v := v, e := e1 || e2, e1 := e1, e2 := e2, i := 0, l := .low, wcnt := 0 }
        ticks := s.ticks + 287
        trace := (startEvents s.ticks ++ writeFrame (s.ticks + 35) Config.statusWrCode e1 ++
          writeFrame (s.ticks + 161) v e2).reverse ++ s.trace
        world := s.world.used 2 as } := by
  have hstart : (bigStart s).world.answers = e1 :: e2 :: as := h
  rw [bigWrstat, bigWrbyte_eq hstart, bigWrbyte_eq (e := e2) (as := as) rfl, bigStart_eq]
  simp [World.used_used, Nat.add_assoc]

end Sys2Proof.Machine
end

section
/-! PROOFS. The commands START, CONNRESET, RDSTAT and WRSTAT from acceptance to completion (R163, R165, R177, R179). -/

namespace Sys2Proof.Machine

section Completion
variable {s : State}

/-! ### The last statements of the wrappers complete the command (R161) -/

theorem State.sequencing.reaches_completeStart (hs : s.sequencing) :
    Reaches (s.goto (.wrapper .x1b) []) (completeStart s) := hs.reaches rfl

theorem State.sequencing.reaches_completeConnreset (hs : s.sequencing) :
    Reaches (s.goto (.wrapper .x2b) []) (completeConnreset s) := hs.reaches rfl

theorem State.sequencing.reaches_completeRdstat (hs : s.sequencing) :
    Reaches (s.goto (.wrapper .x4b) []) (completeRdstat s) := hs.reaches rfl

theorem State.sequencing.reaches_completeWrstat (hs : s.sequencing) :
    Reaches (s.goto (.wrapper .x5b) []) (completeWrstat s) := hs.reaches rfl

/-! ### From acceptance to completion -/

/-- An accepted START runs wrapper X1 to its completion (R163). -/
theorem State.ready.reaches_completeStart (h : s.ready) (ha : s.alone) :
    Reaches (s.accept .start .x1a) (completeStart (bigStart (s.accept .start .x1a))) := by
  let t := s.accept .start .x1a
  let u := bigStart t
  have ht : t.sequencing := h.accept_sequencing ha _ _
  have hu : u.sequencing := ht.after_bigStart
  have hx1a : Reaches t (u.goto (.wrapper .x1b) []) :=
    ht.reaches_start (f := .wrapper .x1a) (rest := []) rfl rfl
  have hx1b : Reaches (u.goto (.wrapper .x1b) []) (completeStart u) :=
    hu.reaches_completeStart
  exact hx1a.trans hx1b

/-- An accepted CONNRESET runs wrapper X2 to its completion (R165). -/
theorem State.ready.reaches_completeConnreset (h : s.ready) (ha : s.alone) :
    Reaches (s.accept .connreset .x2a)
      (completeConnreset (bigConnreset (s.accept .connreset .x2a))) := by
  let t := s.accept .connreset .x2a
  let u := bigConnreset t
  have ht : t.sequencing := h.accept_sequencing ha _ _
  have hu : u.sequencing := ht.after_bigConnreset
  have hcall : Reaches t (t.goto (.connreset .q1dir) [.wrapper .x2a]) :=
    ht.reaches (f := .wrapper .x2a) (rest := []) rfl
  have hx2a : Reaches (t.goto (.connreset .q1dir) [.wrapper .x2a])
      (u.goto (.wrapper .x2b) []) := ht.reaches_bigConnreset rfl
  have hx2b : Reaches (u.goto (.wrapper .x2b) []) (completeConnreset u) :=
    hu.reaches_completeConnreset
  exact hcall.trans (hx2a.trans hx2b)

/-- An accepted RDSTAT runs wrapper X4 to its completion (R177). -/
theorem State.ready.reaches_completeRdstat (h : s.ready) (ha : s.alone) :
    Reaches (s.accept .rdstat .x4a) (completeRdstat (bigRdstat (s.accept .rdstat .x4a))) := by
  let t := s.accept .rdstat .x4a
  let u := bigRdstat t
  have ht : t.sequencing := h.accept_sequencing ha _ _
  have hu : u.sequencing := ht.after_bigRdstat
  have hcall : Reaches t (t.goto (.rdstat .t1) [.wrapper .x4a]) :=
    ht.reaches (f := .wrapper .x4a) (rest := []) rfl
  have hx4a : Reaches (t.goto (.rdstat .t1) [.wrapper .x4a])
      (u.goto (.wrapper .x4b) []) := ht.reaches_bigRdstat rfl
  have hx4b : Reaches (u.goto (.wrapper .x4b) []) (completeRdstat u) :=
    hu.reaches_completeRdstat
  exact hcall.trans (hx4a.trans hx4b)

/-- An accepted WRSTAT runs wrapper X5 to its completion (R179). -/
theorem State.ready.reaches_completeWrstat (h : s.ready) (ha : s.alone) (v : Byte) :
    Reaches (s.accept (.wrstat v) .x5a)
      (completeWrstat (bigWrstat v (s.accept (.wrstat v) .x5a))) := by
  let t := s.accept (.wrstat v) .x5a
  let u := bigWrstat v t
  have ht : t.sequencing := h.accept_sequencing ha _ _
  have hu : u.sequencing := ht.after_bigWrstat v
  have harg : t.work.arg = v := congrArg CommandFields.arg (fieldsOf_wordOf _)
  have hcall : Reaches t (t.goto (.wrstat .v1) [.wrapper .x5a]) :=
    ht.reaches (f := .wrapper .x5a) (rest := []) rfl
  have hx5a : Reaches (t.goto (.wrstat .v1) [.wrapper .x5a])
      (u.goto (.wrapper .x5b) []) := ht.reaches_bigWrstat harg rfl
  have hx5b : Reaches (u.goto (.wrapper .x5b) []) (completeWrstat u) :=
    hu.reaches_completeWrstat
  exact hcall.trans (hx5a.trans hx5b)

/-- An idle block answers an offered command by accepting it, and what the accepted command reaches is
what a run of the block alone gives. -/
theorem State.ready.exec_then_run (h : s.ready) {i : Instr} {x : WrapAt} {u : State}
    (hexec : exec i s = .next (s.offer i x)) (hrun : Reaches (s.accept i x) u) :
    ∃ t k, exec i s = .next t ∧ t.stat.busy = true ∧ Host.Core.run core k t = .next u := by
  obtain ⟨k, hk⟩ := hrun
  exact ⟨_, k, hexec.trans (congrArg _ (h.offer i x)), rfl, hk⟩

end Completion

/-- Settles O15: the accepted command runs to its big-step effect, which is the start condition. -/
theorem startCompletesWithTheStartCondition : Obligations.StartCompletesWithTheStartCondition := by
  intro s hready halone
  obtain ⟨t, k, hexec, hbusy, hrun⟩ :=
    hready.exec_then_run rfl (hready.reaches_completeStart halone)
  refine ⟨t, k, _, hexec, hbusy, hrun, ?_⟩
  obtain ⟨-, -, -, -, hctl⟩ := hready
  rw [bigStart_eq]
  simp only [completeStart, State.done, hctl]
  rfl

/-- Settles O16: the accepted command runs to its big-step effect, which is the bus reset. -/
theorem connresetCompletesWithTheBusReset : Obligations.ConnresetCompletesWithTheBusReset := by
  intro s hready halone
  obtain ⟨t, k, hexec, hbusy, hrun⟩ :=
    hready.exec_then_run rfl (hready.reaches_completeConnreset halone)
  refine ⟨t, k, _, hexec, hbusy, hrun, ?_⟩
  obtain ⟨-, -, -, -, hctl⟩ := hready
  rw [bigConnreset_eq]
  simp only [completeConnreset, State.done, hctl]
  rfl

/-- Settles O19: the accepted command runs to its big-step effect, in which the read frame follows the
write frame for either acknowledge. -/
theorem rdstatCompletesWithTheByteRead : Obligations.RdstatCompletesWithTheByteRead := by
  intro s v e as hready halone hans
  obtain ⟨t, k, hexec, hbusy, hrun⟩ :=
    hready.exec_then_run rfl (hready.reaches_completeRdstat halone)
  refine ⟨t, k, _, hexec, hbusy, hrun, ?_⟩
  obtain ⟨-, -, -, -, hctl⟩ := hready
  rw [bigRdstat_eq (s := s.accept .rdstat .x4a) hans]
  simp only [completeRdstat, State.setRdata, State.doneAck, State.done, hctl]
  rfl

/-- Settles O20: the accepted command runs to its big-step effect, in which the second write frame follows
the first for either acknowledge. -/
theorem wrstatCompletesWithBothBytesSent : Obligations.WrstatCompletesWithBothBytesSent := by
  intro s v e1 e2 as hready halone hans
  obtain ⟨t, k, hexec, hbusy, hrun⟩ :=
    hready.exec_then_run rfl (hready.reaches_completeWrstat halone v)
  refine ⟨t, k, _, hexec, hbusy, hrun, ?_⟩
  obtain ⟨-, -, -, -, hctl⟩ := hready
  rw [bigWrstat_eq (s := s.accept (.wrstat v) .x5a) hans]
  simp only [completeWrstat, State.doneAck, State.done, hctl]
  rfl

end Sys2Proof.Machine
end

section
/-! SUPPORT. The unit converter over the rationals: the source's formulas in units of 1/409600, and the clamp by cases
(R200, R201, R203). -/

namespace Sys2Proof.Machine

/-! ### The clamp of R203, one equation for each range -/

section Clamp
variable {lin : Int}

theorem clampRh_of_gt (h : 40550400 < lin) : clampRh lin = 40960000 := if_pos h

theorem clampRh_of_lt (h : lin < 40960) : clampRh lin = 40960 := by
  rw [clampRh, if_neg (by omega), if_pos h]

theorem clampRh_of_mem (hlo : 40960 ≤ lin) (hhi : lin ≤ 40550400) : clampRh lin = lin := by
  rw [clampRh, if_neg (by omega), if_neg (by omega)]

end Clamp

/-! ### The clamp's bounds, 99 and 0.1 percent, in units of 1/409600 -/

section Bounds
variable (lin : Int)

theorem ninetyNine_lt_div_iff : (99 : ℚ) < lin / 409600 ↔ 40550400 < lin := by
  have hbound : (99 : ℚ) * 409600 = (40550400 : Int) := by norm_num
  rw [lt_div_iff₀ (by norm_num), hbound, Int.cast_lt]

theorem div_lt_tenth_iff : (lin / 409600 : ℚ) < 0.1 ↔ lin < 40960 := by
  have hbound : (0.1 : ℚ) * 409600 = (40960 : Int) := by norm_num
  rw [div_lt_iff₀ (by norm_num), hbound, Int.cast_lt]

end Bounds

/-! ### The source's formulas (R201, R203) -/

section Formulas
variable (raw : Raw)

theorem cvtT_div : (cvtT raw : ℚ) / 409600 = 175.72 / 16384 * raw.toNat - 46.85 := by
  rw [cvtT]
  push_cast
  ring

theorem linRh_div : (linRh raw : ℚ) / 409600 = -6 + 125 / 4096 * raw.toNat := by
  rw [linRh]
  push_cast
  ring

theorem cvtT_neg_iff : cvtT raw < 0 ↔ raw.toNat ≤ 4368 := by
  rw [cvtT]
  omega

theorem cvtRh_of_gt (h : (linRh raw : ℚ) / 409600 > 99) : (cvtRh raw : ℚ) / 409600 = 100 := by
  rw [cvtRh, clampRh_of_gt ((ninetyNine_lt_div_iff _).mp h)]
  norm_num

theorem cvtRh_of_lt (h : (linRh raw : ℚ) / 409600 < 0.1) : (cvtRh raw : ℚ) / 409600 = 0.1 := by
  rw [cvtRh, clampRh_of_lt ((div_lt_tenth_iff _).mp h)]
  norm_num

theorem cvtRh_of_mem (hlo : 0.1 ≤ (linRh raw : ℚ) / 409600) (hhi : (linRh raw : ℚ) / 409600 ≤ 99) :
    cvtRh raw = linRh raw := by
  have hlo' : 40960 ≤ linRh raw := not_lt.mp ((div_lt_tenth_iff _).not.mp hlo.not_gt)
  have hhi' : linRh raw ≤ 40550400 := not_lt.mp ((ninetyNine_lt_div_iff _).not.mp hhi.not_gt)
  exact clampRh_of_mem hlo' hhi'

end Formulas

end Sys2Proof.Machine
end

section
/-! PROOFS. The converter is the source's formula with the source's clamp (R201, R203). -/

namespace Sys2Proof.Machine

/-- Settles O34: the listed values by evaluation, then for every raw count the two formulas, the sign of the
temperature, and the clamp range by range. -/
theorem converterIsTheSourcesFormulaExactly : Obligations.ConverterIsTheSourcesFormulaExactly := by
  refine ⟨by decide, by decide, by decide, by decide, by decide, fun raw => ?_⟩
  exact ⟨cvtT_div raw, cvtT_neg_iff raw, linRh_div raw, cvtRh_of_gt raw, cvtRh_of_lt raw,
    cvtRh_of_mem raw⟩

end Sys2Proof.Machine
end

section
/-! SUPPORT. The decoder's answer by the legality check on the fields (R91), and a command offered to a busy and to an idle
block (R160, R228). -/

namespace Sys2Proof

/-! ### A word is a command when its fields are legal (R91, R93, R95) -/

/-- The bits from `k` up are 0 in a byte below `2 ^ k`. -/
theorem extractLsb'_high_eq_zero_iff {arg : Byte} {k len : Nat} (hk : k + len = 8) :
    arg.extractLsb' k len = 0 ↔ arg.toNat < 2 ^ k := by
  have hlt : arg.toNat / 2 ^ k < 2 ^ len :=
    Nat.div_lt_of_lt_mul (by rw [← Nat.pow_add, hk]; exact arg.isLt)
  rw [← BitVec.toNat_inj, BitVec.extractLsb'_toNat, Nat.shiftRight_eq_div_pow, Nat.mod_eq_of_lt hlt]
  exact Nat.div_eq_zero_iff_lt (Nat.two_pow_pos k)

theorem exists_command_withoutOperand_iff {arg : Byte} {i : Instr} :
    (∃ j, withoutOperand arg i = .command j) ↔ arg = 0 := by
  simp [withoutOperand_eq_command]

/-- A decode that asks for a condition on the operand answers a command when the condition holds. -/
theorem exists_command_ite_iff {p : Prop} [Decidable p] {i : Instr} {why : IllegalWord} :
    (∃ j, (if p then Decoded.command i else .illegal why) = .command j) ↔ p := by
  by_cases hp : p <;> simp [hp]

/-- The opcode map read by the opcode: each row's operand condition is the operand check's (R93), and an
opcode outside the map is reserved (R95). -/
theorem exists_command_decodeFields_iff (f : CommandFields) :
    (∃ i, decodeFields f.op f.arg = .command i) ↔ f.opOk = true ∧ f.argOk = true := by
  unfold decodeFields
  split
  case h_1 hop | h_2 hop | h_4 hop =>
    rw [exists_command_withoutOperand_iff]
    simp [CommandFields.opOk, CommandFields.argOk, hop]
  case h_3 hop | h_7 hop =>
    rw [exists_command_ite_iff, extractLsb'_high_eq_zero_iff rfl]
    simp [CommandFields.opOk, CommandFields.argOk, hop]
  case h_5 hop | h_6 hop => simp [CommandFields.opOk, CommandFields.argOk, hop]
  case h_8 h1 h2 h3 h4 h5 h6 h7 =>
    simp only [imp_false] at h1 h2 h3 h4 h5 h6 h7
    have hop : f.opOk = false := by
      simp only [CommandFields.opOk, Bool.and_eq_false_iff, decide_eq_false_iff_not]
      omega
    simp [hop]

theorem exists_command_iff_legal {w : Word} :
    (∃ i, decode w = .command i) ↔ (fieldsOf w).legal = true := by
  by_cases hzero : (fieldsOf w).zero = 0
  · have hd : decode w = decodeFields (fieldsOf w).op (fieldsOf w).arg := if_pos hzero
    rw [hd, exists_command_decodeFields_iff]
    simp [CommandFields.legal, CommandFields.zeroOk, hzero]
  · have hd : decode w = .illegal .highBits := if_neg hzero
    have hlegal : (fieldsOf w).zeroOk = false := beq_false_of_ne hzero
    simp [hd, CommandFields.legal, hlegal]

end Sys2Proof

namespace Sys2Proof.Machine

/-! ### A command offered to a busy and to an idle block (R160, R228) -/

section Offer
variable {s : State}

theorem exec_of_busy (i : Instr) (hbusy : s.stat.busy = true) : exec i s = .next s.reject := by
  obtain ⟨x, hx⟩ := exec_is_an_offer i s
  rw [hx, State.offer, hbusy, Bool.or_true, if_pos rfl]

theorem exec_of_idle (i : Instr) (hrst : s.pins.rst = false) (hbusy : s.stat.busy = false) :
    ∃ x, exec i s = .next (s.accept i x) := by
  obtain ⟨x, hx⟩ := exec_is_an_offer i s
  exact ⟨x, by rw [hx, State.offer, hrst, hbusy, Bool.or_false, if_neg Bool.false_ne_true]⟩

end Offer

end Sys2Proof.Machine
end

section
/-! PROOFS. A rejected CMD write sets ILL and nothing else; an accepted one and a reset clear it (R228). -/

namespace Sys2Proof.Machine

section CmdWrite
variable {s : State} {w : Word} {rest : List Move}

/-- An illegal word is rejected by the decoder, and a legal one that meets a busy block by the offer. -/
theorem step_of_rejected_write (hag : s.world.agenda = .host (.write 0 w) :: rest)
    (h : (fieldsOf w).legal = false ∨ s.stat.busy = true) : step s = .next (s.taken rest).reject := by
  cases hd : decode w with
  | illegal why => exact step_of_write_cmd_illegal hag hd
  | command i =>
    have hlegal : (fieldsOf w).legal = true := exists_command_iff_legal.mp ⟨i, hd⟩
    have hbusy : s.stat.busy = true := h.resolve_left (ne_false_of_eq_true hlegal)
    rw [step_of_write_cmd_legal hag hd]
    exact exec_of_busy i hbusy

/-- A legal word that meets an idle block is accepted as the command it encodes. -/
theorem step_of_accepted_write (hag : s.world.agenda = .host (.write 0 w) :: rest)
    (hrst : s.pins.rst = false) (hlegal : (fieldsOf w).legal = true) (hbusy : s.stat.busy = false) :
    ∃ i x, encode i = w ∧ step s = .next ((s.taken rest).accept i x) := by
  obtain ⟨i, hd⟩ := exists_command_iff_legal.mpr hlegal
  obtain ⟨x, hx⟩ := exec_of_idle (s := s.taken rest) i hrst hbusy
  exact ⟨i, x, encode_of_decode hd, (step_of_write_cmd_legal hag hd).trans hx⟩

end CmdWrite

theorem State.assertRst_stat (s : State) : s.assertRst.stat = Stat.reset := rfl

/-- Settles O9: the rejected write, the accepted write, and the reset value of ILL. -/
theorem cmdWriteIsRejectedWhenIllegalOrBusy : Obligations.CmdWriteIsRejectedWhenIllegalOrBusy := by
  refine ⟨fun s w rest hag hrst => ⟨?rejected, ?accepted⟩, ?reset⟩
  case rejected =>
    intro h
    rw [step_of_rejected_write hag h, State.reject_of_released (s := s.taken rest) hrst]
    rfl
  case accepted =>
    intro hlegal hbusy
    obtain ⟨i, x, hcmd, hstep⟩ := step_of_accepted_write hag hrst hlegal hbusy
    exact ⟨_, hstep, hcmd, rfl, rfl⟩
  case reset =>
    intro s
    rw [s.assertRst_stat]
    rfl

end Sys2Proof.Machine
end

section
/-! PROOFS. The eight window words after reset (R39, R252). -/

namespace Sys2Proof.Machine

/-- The window of any state, word by word (R61). -/
theorem State.map_readWord (s : State) :
    [0, 1, 2, 3, 4, 5, 6, 7].map s.readWord =
      [s.cmd, s.stat.word, if s.crcEn then 1 else 0, s.rdata.setWidth 32, s.temp.setWidth 32,
        s.humi.setWidth 32, tempFx s.temp, humiFx s.humi] := by
  simp only [List.map_cons, List.map_nil, State.readWord_cmd, State.readWord_stat, State.readWord_cfg,
    State.readWord_rdata, State.readWord_temp, State.readWord_humi, State.readWord_tempFx,
    State.readWord_humiFx]

/-- BUSY is bit 0, and the only bit set. -/
theorem Stat.word_reset : Stat.reset.word = 0x00000001 := by decide

/-- Count 0 stands for -46.85 degrees, a negative word. -/
theorem tempFx_zero : tempFx 0 = 0xFEDB3000 := by decide

/-- Count 0 lies below the clamp's lower bound, so its word is that of 0.1 percent. -/
theorem humiFx_zero : humiFx 0 = 0x0000A000 := by
  have hclamp : cvtRh 0 = 40960 := clampRh_of_lt (show linRh 0 < 40960 by decide)
  rw [humiFx, hclamp]
  rfl

/-- Settles O38: the window of the reset state, with STAT and the two converted words at their values. -/
theorem resetWindowWords : Obligations.ResetWindowWords := by
  calc [0, 1, 2, 3, 4, 5, 6, 7].map State.reset.readWord
      = [0x00000200, Stat.reset.word, 0, 0, 0, 0, tempFx 0, humiFx 0] := State.reset.map_readWord
    _ = [0x00000200, 0x00000001, 0, 0, 0, 0, 0xFEDB3000, 0x0000A000] := by
      rw [Stat.word_reset, tempFx_zero, humiFx_zero]

end Sys2Proof.Machine
end

section
/-! PROOFS. Every command is its one legal word, and the words of the table (R90 to R95). -/

namespace Sys2Proof

/-- The encoder writes the fields that R92 and R93 give the command. -/
theorem fieldsOf_encode (i : Instr) : fieldsOf (encode i) = i.fields := by
  rw [encode, fieldsOf_wordOf]
  cases i with
  | meas sel hook => cases sel <;> cases hook <;> rfl
  | rdbyte ack => cases ack <;> rfl
  | start | connreset | rdstat | wrstat | wrbyte => rfl

theorem Instr.fields_zero (i : Instr) : i.fields.zero = 0 := by cases i <;> rfl

/-- The opcode map and the operand decode read a command back from its fields. -/
theorem decodeFields_fields (i : Instr) : decodeFields i.fields.op i.fields.arg = .command i := by
  cases i with
  | meas sel hook => cases sel <;> cases hook <;> decide
  | rdbyte ack => cases ack <;> decide
  | start | connreset | rdstat => decide
  | wrstat value | wrbyte value => rfl

theorem decode_encode (i : Instr) : decode (encode i) = .command i := by
  rw [decode, fieldsOf_encode, if_pos i.fields_zero, decodeFields_fields]

/-- Settles O2: a decoded word is legal, so well-formedness comes from the round trip. -/
theorem decodeReadsBackEveryEncodedCommand : Obligations.DecodeReadsBackEveryEncodedCommand := by
  intro i
  have hlegal : (fieldsOf (encode i)).legal = true :=
    exists_command_iff_legal.mp ⟨i, decode_encode i⟩
  rw [fieldsOf_encode] at hlegal
  exact ⟨hlegal, fieldsOf_encode i, decode_encode i⟩

/-- Settles O3. -/
theorem decodedWordIsTheCommandsEncoding : Obligations.DecodedWordIsTheCommandsEncoding :=
  fun _ _ hd => encode_of_decode hd

/-- Settles O4. -/
theorem wordIsACommandExactlyWhenLegal : Obligations.WordIsACommandExactlyWhenLegal :=
  fun _ => exists_command_iff_legal

/-- Settles O1, by evaluation of the decoder on the listed words. -/
theorem listedWordsDecodeAsTheTableSays : Obligations.ListedWordsDecodeAsTheTableSays := by
  unfold Obligations.ListedWordsDecodeAsTheTableSays
  decide

end Sys2Proof
end

section
/-! PROOFS. The host port: a command on an idle and on a busy block, reset, and the script lines that wait (R26, R104, R160,
R228, R250). -/

namespace Sys2Proof.Machine

/-! ### Commands (R26, R160, R228) -/

/-- Settles O6. -/
theorem stepRunsTheDecodedCommand : Obligations.StepRunsTheDecodedCommand :=
  fun _ _ _ _ hag hd => step_of_write_cmd_legal hag hd

theorem exec_eq_offer (i : Instr) (s : State) : exec i s = .next (s.offer i (wrapperOf i)) := by
  cases i <;> rfl

/-- Settles O7: the offer is an acceptance, which latches the fields of the command's word. -/
theorem idleBlockAcceptsEveryCommand : Obligations.IdleBlockAcceptsEveryCommand := by
  intro i s hrst hbusy
  have haccept : s.offer i (wrapperOf i) = s.accept i (wrapperOf i) := by
    simp [State.offer, hrst, hbusy]
  rw [exec_eq_offer, haccept, State.accept, fieldsOf_encode]

/-- Settles O8. -/
theorem busyBlockRejectsEveryCommand : Obligations.BusyBlockRejectsEveryCommand := by
  intro i s hrst hbusy
  rw [exec_of_busy i hbusy, State.reject_of_released hrst]

/-! ### Reset (R250) -/

theorem State.reject_of_rst {s : State} (hrst : s.pins.rst = true) : s.reject = s := if_pos hrst

theorem blockMove_of_rst {s : State} (hrst : s.pins.rst = true) : blockMove s = .next s := if_pos hrst

theorem exec_of_rst (i : Instr) {s : State} (hrst : s.pins.rst = true) : exec i s = .next s := by
  rw [exec_eq_offer, State.offer, hrst, Bool.true_or, if_pos rfl, State.reject_of_rst hrst]

/-- Settles O12: in the state under reset the block, an offer and a rejection all answer that state. -/
theorem resetWinsOverEverything : Obligations.ResetWinsOverEverything := by
  intro s i
  have hrst : s.assertRst.pins.rst = true := rfl
  exact ⟨s.assertRst, rfl, rfl, blockMove_of_rst hrst, exec_of_rst i hrst, State.reject_of_rst hrst, rfl⟩

/-! ### The host waits (R104, R229) -/

theorem waitIdle_eq (s : State) :
    waitIdle s =
      { s with
        world :=
          { s.world with
            agenda := if s.stat.busy then .run :: .waitIdle :: s.world.agenda else s.world.agenda
            readLog := (1, s.stat.word) :: s.world.readLog } } := by
  unfold waitIdle
  cases hbusy : s.stat.busy with
  | false => exact if_neg Bool.false_ne_true
  | true => exact if_pos rfl

theorem step_of_waitIdle {s : State} {rest : List Move} (hag : s.world.agenda = .waitIdle :: rest) :
    step s = .next (waitIdle (s.taken rest)) := by
  simp only [step, nextMove, hag]

/-- Settles O14. -/
theorem waitidleReadsStatUntilIdle : Obligations.WaitidleReadsStatUntilIdle := by
  intro s rest hag
  rw [step_of_waitIdle hag, waitIdle_eq]
  rfl

theorem step_of_waitYield {s : State} {rest : List Move} (hag : s.world.agenda = .waitYield :: rest) :
    step s = .next (waitYield (s.taken rest)) := by
  simp only [step, nextMove, hag]

theorem step_of_hookReturn {s : State} {rest : List Move}
    (hag : s.world.agenda = .host .hookReturn :: rest) :
    step s = hostAct .hookReturn (s.taken rest) := by
  simp only [step, nextMove, hag]

theorem waitYield_of_yielding {s : State} (hyield : s.stat.yieldReq = true) : waitYield s = s := by
  simp [waitYield, hyield]

theorem waitYield_of_idle {s : State} (hbusy : s.stat.busy = false) : waitYield s = s := by
  simp [waitYield, hbusy]

theorem waitYield_of_running {s : State} (hyield : s.stat.yieldReq = false) (hbusy : s.stat.busy = true) :
    waitYield s = s.taken (.run :: .waitYield :: s.world.agenda) := by
  simp [waitYield, State.taken, hyield, hbusy]

/-- Settles O30. -/
theorem hookReturnOutsideAYieldIsIgnored : Obligations.HookReturnOutsideAYieldIsIgnored := by
  intro s hyield
  simp [hostAct, hyield]

/-- A host that goes on at once takes the two moves of HOOKRET from the agenda. -/
theorem run_hookret {s : State} {rest : List Move} (hag : s.world.agenda = ScriptLine.hookret.expand ++ rest)
    (hgo : s.stat.yieldReq = true ∨ s.stat.busy = false) :
    Host.Core.run core 2 s = hostAct .hookReturn (s.taken rest) := by
  have hwait : ∀ moves, waitYield (s.taken moves) = s.taken moves := fun _ =>
    hgo.elim (fun h => waitYield_of_yielding h) (fun h => waitYield_of_idle h)
  rw [run_succ (step_of_waitYield hag), hwait, run_one, step_of_hookReturn rfl]
  rfl

/-- Settles O55: a pending yield and an idle block let the host go on; a running command makes it wait. -/
theorem hookretActsWhileAYieldIsPending : Obligations.HookretActsWhileAYieldIsPending := by
  intro s rest hag
  refine ⟨?pending, ?running, ?idle⟩
  case pending =>
    intro hyield
    rw [run_hookret hag (.inl hyield)]
    exact if_pos hyield
  case running =>
    intro hyield hbusy
    have hwait := waitYield_of_running (s := s.taken (.host .hookReturn :: rest)) hyield hbusy
    rw [step_of_waitYield hag, hag]
    exact congrArg _ hwait
  case idle =>
    intro hyield hbusy
    rw [run_hookret hag (.inr hbusy)]
    exact hookReturnOutsideAYieldIsIgnored (s.taken rest) hyield

end Sys2Proof.Machine
end

section
/-! PROOFS. Byte assembly, the checksum, the converter's ranges, and physical time (R6, R66, R102, R181, R202 to R206). -/

namespace Sys2Proof.Machine

/-! ### Bytes (R66, R102) -/

/-- The eight levels of a byte, shifted in one by one, are the byte: each leaves the bits from its place up. -/
theorem foldl_shiftIn_levelsOf (v : Byte) : (levelsOf v).foldl shiftIn 0 = v := by
  have hempty : (0 : Byte) = v >>> 8 := by simp [BitVec.ushiftRight_eq_zero]
  simp only [levelsOf, List.foldl_cons, List.foldl_nil]
  rw [hempty]
  simp only [shiftIn_ushiftRight, BitVec.ushiftRight_zero]

/-- The levels of eight bits put together are those bits; the width is written as the sum the appends have. -/
theorem levelsOf_append_ofBool {s7 s6 s5 s4 s3 s2 s1 s0 : Level} {v : BitVec (1 + 1 + 1 + 1 + 1 + 1 + 1 + 1)}
    (hv : v = BitVec.ofBool s7 ++ BitVec.ofBool s6 ++ BitVec.ofBool s5 ++ BitVec.ofBool s4 ++
      BitVec.ofBool s3 ++ BitVec.ofBool s2 ++ BitVec.ofBool s1 ++ BitVec.ofBool s0) :
    levelsOf v = [s7, s6, s5, s4, s3, s2, s1, s0] := by
  have hbits : levelsOf v = [v.getLsbD 7, v.getLsbD 6, v.getLsbD 5, v.getLsbD 4, v.getLsbD 3, v.getLsbD 2,
      v.getLsbD 1, v.getLsbD 0] := rfl
  rw [hbits, hv]
  simp only [BitVec.getLsbD_append, BitVec.getLsbD_ofBool]
  rfl

theorem toNat_rawOf (hi lo : Byte) : (rawOf hi lo).toNat = 256 * hi.toNat + lo.toNat := by
  rw [rawOf, BitVec.toNat_append, ← Nat.shiftLeft_add_eq_or_of_lt lo.isLt, Nat.shiftLeft_eq]
  omega

/-- Settles O31: the shifts invert `levelsOf`, and the eight levels are those of the byte they make. -/
theorem samplesAssembleMostSignificantFirst : Obligations.SamplesAssembleMostSignificantFirst := by
  refine ⟨fun s7 s6 s5 s4 s3 s2 s1 s0 => ?levels, foldl_shiftIn_levelsOf, toNat_rawOf⟩
  case levels => rw [← levelsOf_append_ofBool rfl, foldl_shiftIn_levelsOf]

/-! ### The checksum (R174, R181) -/

theorem crcShift_xor (x y : Byte) : crcShift (x ^^^ y) = crcShift x ^^^ crcShift y := by
  unfold crcShift
  rw [BitVec.getLsbD_xor, BitVec.shiftLeft_xor_distrib]
  cases x.getLsbD 7 <;> cases y.getLsbD 7 <;> simp <;> ac_nf
  simp

theorem crcShifts_xor (m : Nat) (x y : Byte) : crcShifts m (x ^^^ y) = crcShifts m x ^^^ crcShifts m y := by
  induction m generalizing x y with
  | zero => rfl
  | succ m ih => exact (congrArg (crcShifts m) (crcShift_xor x y)).trans (ih _ _)

theorem crcByte_xor (c c' b b' : Byte) : crcByte (c ^^^ c') (b ^^^ b') = crcByte c b ^^^ crcByte c' b' := by
  rw [crcByte, crcByte, crcByte, ← crcShifts_xor]
  congr 1
  ac_rfl

theorem crc8_xor (a b c d : Byte) : crc8 (a ^^^ c) (b ^^^ d) = crc8 a b ^^^ crc8 c d := by
  have hinit : Config.crcInit = Config.crcInit ^^^ Config.crcInit := rfl
  rw [crc8, hinit, crcByte_xor, crcByte_xor]
  rfl

/-- The polynomial's lowest bit is 1 and a shift's is 0, so a shift that gives 0 has dropped no 1. -/
theorem eq_zero_of_crcShift_eq_zero {x : Byte} (h : crcShift x = 0) : x = 0 := by
  have hbit : ∀ i, (crcShift x).getLsbD i = false := by simp [h]
  unfold crcShift at hbit
  cases h7 : x.getLsbD 7 with
  | true => simpa [h7, Config.crcPoly] using hbit 0
  | false =>
    simp only [h7, Bool.false_eq_true, if_false, BitVec.getLsbD_shiftLeft] at hbit
    apply BitVec.eq_of_getLsbD_eq
    intro i hi
    by_cases hlast : i = 7
    · rw [hlast, h7]
      rfl
    · simpa [show i + 1 < 8 by omega] using hbit (i + 1)

theorem eq_zero_of_crcShifts_eq_zero {m : Nat} {x : Byte} (h : crcShifts m x = 0) : x = 0 := by
  induction m generalizing x with
  | zero => exact h
  | succ m ih => exact eq_zero_of_crcShift_eq_zero (ih h)

theorem crcByte_injective {c b c' b' : Byte} (h : crcByte c b = crcByte c' b') : c ^^^ b = c' ^^^ b' := by
  have hzero : crcShifts 8 ((c ^^^ b) ^^^ (c' ^^^ b')) = 0 := by
    rw [crcShifts_xor]
    exact BitVec.xor_eq_zero_iff.mpr h
  exact BitVec.xor_eq_zero_iff.mp (eq_zero_of_crcShifts_eq_zero hzero)

/-- Settles O33: each byte of the checksum is linear and injective in its exclusive-or with the state. -/
theorem crcIsLinearAndSeesASingleByteError : Obligations.CrcIsLinearAndSeesASingleByteError := by
  refine ⟨crc8_xor, fun a b d hne h => hne ?low, fun a b c hne h => hne ?high⟩
  case low => exact (BitVec.xor_right_inj _).mp (crcByte_injective h)
  case high =>
    have hfirst : crcByte Config.crcInit a = crcByte Config.crcInit c :=
      (BitVec.xor_left_inj _).mp (crcByte_injective h)
    exact (BitVec.xor_right_inj _).mp (crcByte_injective hfirst)

/-- Settles O32: the two settings by definition, the check values by evaluation. -/
theorem expectedChecksumFollowsCrcEn : Obligations.ExpectedChecksumFollowsCrcEn :=
  ⟨fun _ _ => ⟨rfl, rfl⟩, by decide +kernel, by decide +kernel, by decide +kernel, by decide +kernel⟩

/-! ### The converter (R202, R204 to R206) -/

/-- Settles O35. -/
theorem temperatureGrowsBy4393PerCount : Obligations.TemperatureGrowsBy4393PerCount := by
  refine ⟨fun raw raw' hsucc => ?grows, fun raw => ?bounds⟩
  case grows =>
    simp only [cvtT, hsucc]
    omega
  case bounds =>
    have hraw : raw.toNat < 65536 := raw.isLt
    refine ⟨?_, ?_, toInt_tempFx raw⟩ <;> simp only [cvtT] <;> omega

theorem linRh_gt_iff (raw : Raw) : 40550400 < linRh raw ↔ 3441 ≤ raw.toNat := by
  simp only [linRh]
  omega

theorem linRh_lt_iff (raw : Raw) : linRh raw < 40960 ↔ raw.toNat ≤ 199 := by
  simp only [linRh]
  omega

theorem cvtRh_low {raw : Raw} (h : raw.toNat ≤ 199) : cvtRh raw = 40960 :=
  clampRh_of_lt ((linRh_lt_iff raw).mpr h)

theorem cvtRh_high {raw : Raw} (h : 3441 ≤ raw.toNat) : cvtRh raw = 40960000 :=
  clampRh_of_gt ((linRh_gt_iff raw).mpr h)

theorem cvtRh_middle {raw : Raw} (hlo : 200 ≤ raw.toNat) (hhi : raw.toNat ≤ 3440) :
    cvtRh raw = linRh raw :=
  have hlow : ¬ linRh raw < 40960 := fun h => by have := (linRh_lt_iff raw).mp h; omega
  have hhigh : ¬ 40550400 < linRh raw := fun h => by have := (linRh_gt_iff raw).mp h; omega
  clampRh_of_mem (not_lt.mp hlow) (not_lt.mp hhigh)

/-- The formula on the range that is not clamped stays at or below 98.98 percent. -/
theorem cvtRh_middle_bounds {raw : Raw} (hlo : 200 ≤ raw.toNat) (hhi : raw.toNat ≤ 3440) :
    42400 ≤ cvtRh raw ∧ cvtRh raw ≤ 40542400 := by
  rw [cvtRh_middle hlo hhi, linRh]
  omega

theorem cvtRh_not_between (raw : Raw) : ¬ (40550400 < cvtRh raw ∧ cvtRh raw < 40960000) := by
  rcases Nat.lt_or_ge raw.toNat 200 with hlow | hlo
  · rw [cvtRh_low (by omega)]
    omega
  rcases Nat.lt_or_ge raw.toNat 3441 with hhi | hhigh
  · have := cvtRh_middle_bounds hlo (by omega)
    omega
  · rw [cvtRh_high hhigh]
    omega

/-- Settles O36, range by range. -/
theorem humidityClampInTermsOfTheRawCount : Obligations.HumidityClampInTermsOfTheRawCount := by
  intro raw
  have hraw : raw.toNat < 65536 := raw.isLt
  refine ⟨linRh_gt_iff raw, linRh_lt_iff raw, cvtRh_low,
    fun hlo hhi => ⟨cvtRh_middle hlo hhi, cvtRh_middle_bounds hlo hhi⟩, cvtRh_high, ?_, ?_, ?_,
    cvtRh_not_between raw⟩ <;> simp only [linRh] <;> omega

theorem clampRh_mono {a b : Int} (h : a ≤ b) : clampRh a ≤ clampRh b := by
  have ha := clampRh_bounds a
  have hb := clampRh_bounds b
  rcases lt_or_ge 40550400 b with hbig | hb'
  · rw [clampRh_of_gt hbig]
    omega
  rcases lt_or_ge a 40960 with hsmall | ha'
  · rw [clampRh_of_lt hsmall]
    omega
  · rw [clampRh_of_mem ha' (by omega), clampRh_of_mem (by omega) hb']
    exact h

theorem linRh_mono {raw raw' : Raw} (h : raw.toNat ≤ raw'.toNat) : linRh raw ≤ linRh raw' := by
  simp only [linRh]
  omega

/-- Settles O37: the formula is linear, and the clamp keeps its order and its bounds. -/
theorem humidityIsClampedAndMonotone : Obligations.HumidityIsClampedAndMonotone := by
  refine ⟨fun raw raw' hsucc => ?grows, fun raw => ?bounds, fun raw raw' h => clampRh_mono (linRh_mono h),
    fun raw raw' h h' => ?low, fun raw raw' h h' => ?high⟩
  case grows =>
    simp only [linRh, hsucc]
    omega
  case bounds =>
    obtain ⟨hlo, hhi⟩ := clampRh_bounds (linRh raw)
    exact ⟨hlo, hhi, toInt_humiFx raw⟩
  case low => rw [cvtRh_low h, cvtRh_low h']
  case high => rw [cvtRh_high h, cvtRh_high h']

/-! ### Physical time (R6, D2) -/

theorem elapsed_bigWait_sub (n : Nat) (s : State) :
    (bigWait n s).elapsed - s.elapsed = n * Config.tickDuration := by
  have hticks : (bigWait n s).ticks = s.ticks + n := rfl
  rw [State.elapsed, State.elapsed, hticks, Nat.cast_add]
  ring

theorem elapsed_lt_tick (s : State) : s.elapsed < s.tick.elapsed :=
  mul_lt_mul_of_pos_right (by simp) Config.tickDuration_pos

/-- A wait of at most HOLD_TICKS takes less than a millisecond. -/
theorem microDelay_lt {n : Nat} (hn : n ≤ Config.holdTicks) : n * Config.tickDuration < 1 := by
  have hn' : (n : ℚ) ≤ 5 := by exact_mod_cast hn
  calc n * Config.tickDuration
      ≤ 5 * Config.tickDuration := mul_le_mul_of_nonneg_right hn' Config.tickDuration_pos.le
    _ < 1 := Config.five_tickDuration_lt

/-- Settles O56. -/
theorem microDelaysAreSubMillisecond : Obligations.MicroDelaysAreSubMillisecond := by
  intro s
  refine ⟨elapsed_lt_tick s, ?setup, ?hold⟩
  case setup => rw [elapsed_bigWait_sub]; exact microDelay_lt (by decide)
  case hold => rw [elapsed_bigWait_sub]; exact microDelay_lt le_rfl

end Sys2Proof.Machine
end

section
/-! PROOFS. PULSE, pending yields, the automatic bus reset, and the byte echoed by a peer (R22, R127, R145, R168, R251). -/

namespace Sys2Proof.Machine

/-! ### The lines as an observer sees them (R22) -/

/-- Settles O27. -/
theorem lineLevelsFollowLatchesAndDirections : Obligations.LineLevelsFollowLatchesAndDirections := by
  intro s
  refine ⟨fun h => ?clock, fun h => ?driven, fun h => ?released⟩
  case clock => simp [State.clockLevel, h]
  case driven => simp [State.dataLevel, h]
  case released => simp [State.dataLevel, h]

/-! ### PULSE (R127) -/

/-- Settles O26: the state is that of a PULSE just called from above `rest`, whose return does not look at
the stack. -/
theorem pulseWritesTheClockOnceInSevenTicks : Obligations.PulseWritesTheClockOnceInSevenTicks := by
  intro s rest hrst hyield hwcnt halone hctl
  let caller : State := { s with ctl := rest }
  have hcaller : caller.sequencing := ⟨hrst, hyield, hwcnt, halone⟩
  have hcalled : s = caller.callPulse s.work.l := by
    rw [State.callPulse, ← hctl]
  let pulsed : State :=
    { s with
      line := { s.line with sckO := s.work.l }
      ticks := s.ticks + 7
      trace := (pulseEvents s.ticks s.work.l).reverse ++ s.trace }
  have hpulsed : bigPulse s.work.l caller = { pulsed with ctl := rest } := by
    rw [bigPulse_eq, ← hwcnt]
  have hrun : Host.Core.run core 10 s = finish (bigPulse s.work.l caller) rest :=
    (congrArg (Host.Core.run core 10) hcalled).trans (hcaller.run_callPulse s.work.l)
  rw [hrun, hpulsed]
  exact finish_ctl_irrelevant pulsed rest rest

/-! ### Yields (R168) -/

theorem blockMove_of_held {s : State} (hrst : s.pins.rst = false) (hack : s.pins.yieldAck = false)
    (hyield : s.stat.yieldReq = true) : blockMove s = .next s.tick := by
  simp [blockMove, hrst, hack, hyield]

theorem step_of_alone {s : State} (halone : s.alone) : step s = blockMove s := by
  simp only [step, nextMove, show s.world.agenda = [] from halone]

/-- Settles O28, by induction on the number of steps: each is one tick, and changes no hypothesis. -/
theorem pendingYieldHoldsUntilTheHookReturns : Obligations.PendingYieldHoldsUntilTheHookReturns := by
  intro s k halone hrst hack hyield
  induction k generalizing s with
  | zero => rfl
  | succ k ih =>
    have hstep : step s = .next s.tick := (step_of_alone halone).trans (blockMove_of_held hrst hack hyield)
    rw [run_succ hstep, ih s.tick halone hrst hack hyield]
    simp only [State.tick, Nat.add_assoc, Nat.add_comm 1]

theorem loopM3_next {s : State} {rest : List Frame} (hn : s.work.n < 250) :
    loopM3 rest s = goOn (.meas .m3a) rest { s with work := { s.work with n := s.work.n + 1 } } := if_pos hn

theorem loopM3_exhausted {s : State} {rest : List Frame} (hn : 250 ≤ s.work.n) :
    loopM3 rest s = goOn (.meas .m3d) rest s := if_neg (not_lt.mpr hn)

/-- The end of a yield at M3c is the end of the loop body. -/
theorem endYield_at_m3c {s : State} {rest : List Frame} (hctl : s.ctl = .meas .m3c :: rest) :
    endYield s = loopM3 rest { s with stat := { s.stat with yieldReq := false } } := by
  simp only [endYield, leaveDelay, hctl]

theorem blockMove_of_statement {s : State} {f : Frame} {rest : List Frame} (hrst : s.pins.rst = false)
    (hyield : s.stat.yieldReq = false) (hwcnt : s.work.wcnt = 0) (hctl : s.ctl = f :: rest) :
    blockMove s = statement f rest s := by
  simp [blockMove, hrst, hyield, hwcnt, hctl]

theorem startYield_hooked {s : State} (h : hookOperand s.work.arg = true) (f : Frame) (rest : List Frame)
    (hf : f = .meas .m3c) :
    statement f rest s = .next { s.record .yield with stat := { s.stat with yieldReq := true } } := by
  rw [hf]
  exact if_pos h

/-- Settles O29: M3c raises the yield, and its return is the end of the loop body, below and at the last
poll. -/
theorem hookedYieldIsRaisedAndReturned : Obligations.HookedYieldIsRaisedAndReturned := by
  intro s rest hrst hyield hwcnt hhook hctl
  let t : State := { s.record .yield with stat := { s.stat with yieldReq := true } }
  have hraise : blockMove s = .next t :=
    (blockMove_of_statement hrst hyield hwcnt hctl).trans (startYield_hooked hhook _ _ rfl)
  have hstat : ({ s.stat with yieldReq := false } : Stat) = s.stat := by rw [← hyield]
  have hreturn : hostAct .hookReturn t = loopM3 rest { t with stat := s.stat } := by
    rw [← hstat]
    exact endYield_at_m3c (s := t) hctl
  refine ⟨t, hraise, rfl, fun hn => ?poll, fun hn => ?last⟩
  case poll => rw [hreturn, loopM3_next (s := { t with stat := s.stat }) hn]; rfl
  case last => rw [hreturn, loopM3_exhausted (s := { t with stat := s.stat }) hn]; rfl

/-! ### The automatic bus reset (R251) -/

/-- Settles O39. -/
theorem resetLinesAndSequencer : Obligations.ResetLinesAndSequencer :=
  ⟨rfl, rfl, rfl, rfl, rfl, rfl, rfl, rfl, rfl, rfl, rfl, rfl⟩

theorem Stat.word_idle : (⟨false, false, .none, false, false, false, false⟩ : Stat).word = 0x00000000 := by
  decide

/-- Wrapper X2 at its first statement runs to the completion of CONNRESET (R165). -/
theorem State.sequencing.reaches_wrappedConnreset {s : State} (hs : s.sequencing) :
    Reaches (s.goto (.wrapper .x2a) []) (completeConnreset (bigConnreset s)) := by
  have hcall : Reaches (s.goto (.wrapper .x2a) []) (s.goto (.connreset .q1dir) [.wrapper .x2a]) :=
    hs.reaches rfl
  have hrun : Reaches (s.goto (.connreset .q1dir) [.wrapper .x2a])
      ((bigConnreset s).goto (.wrapper .x2b) []) := hs.reaches_bigConnreset rfl
  exact hcall.trans (hrun.trans hs.after_bigConnreset.reaches_completeConnreset)

/-- Settles O40: the released state is wrapper X2 at its first statement, which runs to its big-step effect. -/
theorem automaticBusResetAfterReset : Obligations.AutomaticBusResetAfterReset := by
  intro s halone
  let t : State := { s.resetBlock with pins := { s.pins with rst := false } }
  have ht : t.sequencing := ⟨rfl, rfl, rfl, halone⟩
  obtain ⟨k, hk⟩ := ht.reaches_wrappedConnreset
  rw [bigConnreset_eq] at hk
  exact ⟨k, _, hk, ⟨rfl, rfl, rfl, rfl, rfl⟩, ⟨rfl, rfl, rfl⟩, Stat.word_idle, rfl⟩

/-! ### A byte written and echoed back (R145) -/

/-- At the rising edges of the data slots a peer records the bits that were sent. -/
theorem edgeLevels_dataWrites {tail : List LineEvent} {levels : List Level}
    (htail : ∀ o, edgeLevels ⟨.low, .driven, o, .driven⟩ tail = levels) (v : Byte) (m t : Nat) (o : Level) :
    edgeLevels ⟨.low, .driven, o, .driven⟩ (dataWrites t v m ++ tail) = dataBits v m ++ levels := by
  induction m generalizing t o with
  | zero => exact htail o
  | succ m ih =>
    rw [dataWrites_succ, dataBits_succ, List.cons_append, List.cons_append, List.append_assoc]
    exact congrArg (v.getLsbD m :: ·) (ih (t + 14) (v.getLsbD m))

/-- A peer that records a write frame from the idle line has the byte's levels, and reads the released line
high in the acknowledge slot. -/
theorem edgeLevels_writeFrame {ln : Lines} (hclock : ln.sckOe = .driven) (hlow : ln.sckO = .low) (t : Nat)
    (v : Byte) (e : Level) : edgeLevels ln (writeFrame t v e) = levelsOf v ++ [.high] := by
  obtain ⟨sckO, sckOe, sdaO, sdaOe⟩ := ln
  obtain rfl : sckOe = .driven := hclock
  obtain rfl : sckO = .low := hlow
  rw [writeFrame_eq, ← dataBits_eight]
  simp only [List.append_assoc]
  exact edgeLevels_dataWrites (fun _ => rfl) v 8 t sdaO

/-- A ready block that is answered with a byte's levels reads that byte. -/
theorem State.ready.reads_levels {s : State} (h : s.ready) (ha : s.alone) (v : Byte) (a : Bool) :
    ∃ t k u, exec (.rdbyte a) { s with world := { s.world with answers := levelsOf v } } = .next t ∧
      Host.Core.run core k t = .next u ∧ u.stat.busy = false ∧ u.stat.err = false ∧ u.rdata = v := by
  obtain ⟨t, k, u, hexec, -, hrun, hu⟩ :=
    rdbyteCompletesWithTheReadFrame { s with world := { s.world with answers := levelsOf v } } v a [] h ha
      (List.append_nil (levelsOf v)).symm
  refine ⟨t, k, u, hexec, hrun, ?_, ?_, ?_⟩ <;> rw [hu] <;> rfl

/-- What a WRBYTE that is acknowledged leaves behind, as the next command finds it. -/
theorem State.ready.after_wrbyte {s : State} (h : s.ready) (ha : s.alone) {v : Byte} {as : List Level}
    (hans : s.world.answers = .low :: as) :
    ∃ t k u, exec (.wrbyte v) s = .next t ∧ Host.Core.run core k t = .next u ∧ u.ready ∧ u.alone ∧
      u.stat.err = false ∧ u.trace = (writeFrame s.ticks v .low).reverse ++ s.trace := by
  obtain ⟨t, k, hexec, -, hrun⟩ :=
    h.exec_then_run (i := .wrbyte v) rfl (h.reaches_completeWrbyte ha v)
  rw [bigWrbyte_eq (s := s.accept (.wrbyte v) .x6a) hans] at hrun
  obtain ⟨hrst, -, hyield, -⟩ := h
  exact ⟨t, k, _, hexec, hrun, ⟨hrst, rfl, hyield, rfl, rfl⟩, ha, rfl, rfl⟩

/-- Settles O25: the write leaves a ready block, and the levels recorded of its frame are the answers under
which a RDBYTE completes with the byte. -/
theorem byteRoundTripThroughAnEchoingPeer : Obligations.ByteRoundTripThroughAnEchoingPeer := by
  intro s v a as hready halone hidle hans
  obtain ⟨hclock, hlow, -⟩ := hidle
  obtain ⟨t, k, u, hexec, hrun, hu, hualone, herr, htrace⟩ := hready.after_wrbyte halone (v := v) hans
  obtain ⟨-, hbusy, -⟩ := id hu
  have hlevels : edgeLevels s.line (writeFrame s.ticks v .low).reverse.reverse = levelsOf v ++ [.high] := by
    rw [List.reverse_reverse, edgeLevels_writeFrame hclock hlow]
  refine ⟨t, k, u, _, hexec, hrun, hbusy, herr, htrace, ?edges, ?echo⟩
  case edges => rw [hlevels]; rfl
  case echo => rw [hlevels]; exact hu.reads_levels hualone v a

end Sys2Proof.Machine
end

section
/-! SUPPORT. The invariant at a position of the sequencer: what a statement may change, and how going on, a call and a return
keep the stack, the counters and the latched command sound (R33, R34). -/

namespace Sys2Proof.Machine

variable {s t b : State} {f f' g : Frame} {rest : List Frame}

/-! ### Moves that leave the position of the sequencer alone -/

/-- What the invariant reads beside the running delay: the line, the stack, CMD, the result flags, and the
working registers of the command, the counters, the pulse and the result. -/
def State.position (s : State) : Lines × List Frame × Word × (Bool × Bool × Cause) ×
    (BitVec 4 × Byte × Nat × Nat × Nat × Level × Cause × MeasResult) :=
  (s.line, s.ctl, s.cmd, (s.stat.busy, s.stat.err, s.stat.cause),
    (s.work.op, s.work.arg, s.work.i, s.work.k, s.work.n, s.work.l, s.work.cause, s.work.res))

/-- A move that keeps the position keeps the invariant if it keeps what the invariant says of the delay and
of reset. -/
theorem State.Inv.of_position (h : s.Inv) (hpos : t.position = s.position) (hwait : t.waitOk)
    (hyield : t.yieldOk) (hrst : t.rstOk) : t.Inv := by
  simp only [State.position, Prod.mk.injEq] at hpos
  obtain ⟨hline, hctl, hcmd, ⟨hbusy, herr, hcause⟩, hop, harg, hi, hk, hn, hl, hpend, hres⟩ := hpos
  obtain ⟨hbusyIff, hstack, hlineOk, -, -, hcauseOk, herrOk, hcount, hcommand, -⟩ := h
  refine ⟨?_, ?_, ?_, hwait, hyield, ?_, ?_, ?_, ?_, hrst⟩
  · rwa [hbusy, hctl]
  · rwa [hctl]
  · simpa only [State.lineOk, State.idleLine, State.dirOk, State.clockDriven, hline, hctl, hl] using hlineOk
  · rwa [State.causeOk, hctl, hpend, hres]
  · rwa [State.errOk, herr, hcause]
  · rwa [State.countersOk, hi, hk, hn]
  · rwa [State.commandOk, hcmd, hop, harg, hctl]

theorem rstOk_of_released (h : s.pins.rst = false) : s.rstOk :=
  fun hrst => absurd (h.symm.trans hrst) Bool.false_ne_true

theorem yieldOk_of_not_yielding (h : s.stat.yieldReq = false) : s.yieldOk :=
  fun hyield => absurd (h.symm.trans hyield) Bool.false_ne_true

/-! ### The sequencer about to execute a statement -/

/-- The state is sound but for the line, with the statement at `f` next, above `rest`: reset released, no
delay running. -/
structure State.SoundAt (s : State) (f : Frame) (rest : List Frame) : Prop where
  busy : s.stat.busy = true
  rst : s.pins.rst = false
  yieldReq : s.stat.yieldReq = false
  wcnt : s.work.wcnt = 0
  stack : stackOk (f :: rest) = true
  cause : (s.goto f rest).causeOk
  err : s.errOk
  counters : s.countersOk
  command : (s.goto f rest).commandOk

theorem State.SoundAt.inv (h : s.SoundAt f rest) (hline : (s.goto f rest).lineOk) : (s.goto f rest).Inv where
  busyIff := by simp [h.busy]
  stack := h.stack
  line := hline
  wait := .inl h.wcnt
  yield_ := yieldOk_of_not_yielding h.yieldReq
  cause := h.cause
  err := h.err
  counters := h.counters
  command := h.command
  rst := rstOk_of_released h.rst

theorem State.goto_of_ctl (hctl : s.ctl = f :: rest) : s.goto f rest = s := by
  rw [State.goto, ← hctl]

theorem State.Inv.soundAt (h : s.Inv) (hctl : s.ctl = f :: rest) (hrst : s.pins.rst = false)
    (hyield : s.stat.yieldReq = false) (hwcnt : s.work.wcnt = 0) : s.SoundAt f rest := by
  have hgoto := State.goto_of_ctl hctl
  have hbusy : s.stat.busy ≠ false := fun hb => by simp [h.busyIff.mp hb] at hctl
  exact ⟨Bool.eq_true_of_not_eq_false hbusy, hrst, hyield, hwcnt, hctl ▸ h.stack, hgoto.symm ▸ h.cause,
    h.err, h.counters, hgoto.symm ▸ h.command⟩

/-! ### What a statement keeps, and how the stack may change -/

/-- What every statement but the delays and the completions leaves alone. -/
def State.latched (s : State) : Stat × Pins × Word × BitVec 4 × Byte × Nat :=
  (s.stat, s.pins, s.cmd, s.work.op, s.work.arg, s.work.wcnt)

/-- The error class and the result of MEAS that wait for the completion (R166, R169). -/
def State.pending (s : State) : Cause × MeasResult := (s.work.cause, s.work.res)

/-- The labels at which the pending error class or result is already set: the failure exit of MEAS and the
completion of X3. -/
def settled : Frame → Bool
  | .meas .m8call | .meas .m8ret | .wrapper .x3b => true
  | _ => false

/-- A wrapper of the opcode of `f`, where `f` is one. -/
def opOf? : Frame → Option (BitVec 4)
  | .wrapper x => some (wrapperOp x)
  | _ => none

/-- The settled labels of the new stack `c'` stand in the old stack `c`. -/
def settledFrom (c c' : List Frame) : Prop := ∀ g ∈ c', settled g = true → g ∈ c

/-- The wrappers of the new stack `c'` run an opcode that the old stack `c` runs. -/
def opsFrom (c c' : List Frame) : Prop := ∀ g ∈ c', ∀ op, opOf? g = some op → ∃ g' ∈ c, opOf? g' = some op

theorem commandOk_of_opsFrom (h : (s.goto f rest).commandOk) (hkept : b.latched = s.latched)
    {c' : List Frame} (hop : opsFrom (f :: rest) (f' :: c')) :
    (b.goto f' c').commandOk := by
  simp only [State.latched, Prod.mk.injEq] at hkept
  obtain ⟨-, -, hcmd, hopc, harg, -⟩ := hkept
  obtain ⟨hlegal, hlop, hlarg, hwrap⟩ := h
  refine ⟨by simpa [hcmd] using hlegal, by simpa [hcmd, hopc] using hlop, by simpa [hcmd, harg] using hlarg,
    fun x hx => ?_⟩
  obtain ⟨g', hg', hgop⟩ := hop (.wrapper x) hx _ rfl
  cases g' with
  | wrapper y =>
    have hy : wrapperOp y = s.work.op := hwrap y hg'
    have hxy : wrapperOp y = wrapperOp x := Option.some.inj hgop
    exact (hxy.symm.trans hy).trans hopc.symm
  | _ => cases hgop

/-- A move that keeps the latched registers keeps soundness at a position whose stack, counters and pending
error class are sound. -/
theorem State.SoundAt.moved (h : s.SoundAt f rest) {c' : List Frame} (hkept : b.latched = s.latched)
    (hcount : b.countersOk) (hstack : stackOk (f' :: c') = true)
    (hop : opsFrom (f :: rest) (f' :: c'))
    (hcause : (b.goto f' c').causeOk) : b.SoundAt f' c' := by
  have hcommand := commandOk_of_opsFrom h.command hkept hop
  simp only [State.latched, Prod.mk.injEq] at hkept
  obtain ⟨hstat, hpins, -, -, -, hwcnt⟩ := hkept
  exact ⟨hstat ▸ h.busy, hpins ▸ h.rst, hstat ▸ h.yieldReq, hwcnt.trans h.wcnt, hstack, hcause,
    by rw [State.errOk, hstat]; exact h.err, hcount, hcommand⟩

theorem causeOk_of_settledFrom (h : (s.goto f rest).causeOk) (hpend : b.pending = s.pending)
    {c' : List Frame} (hset : settledFrom (f :: rest) (f' :: c')) :
    (b.goto f' c').causeOk := by
  simp only [State.pending, Prod.mk.injEq] at hpend
  obtain ⟨hcause, hres⟩ := hpend
  obtain ⟨hfail, hdone⟩ := h
  refine ⟨fun hin => ?_, fun hin => ?_⟩
  · rw [State.goto_work, hcause]
    exact hfail (hin.imp (fun h => hset _ h rfl) (fun h => hset _ h rfl))
  · rw [State.goto_work, hres]
    exact hdone (hset _ hin rfl)

/-- A move that keeps the latched and the pending registers, along a stack whose settled labels and opcode are
old. -/
theorem State.SoundAt.along (h : s.SoundAt f rest) {c' : List Frame} (hkept : b.latched = s.latched)
    (hpend : b.pending = s.pending) (hcount : b.countersOk) (hstack : stackOk (f' :: c') = true)
    (hset : settledFrom (f :: rest) (f' :: c')) (hop : opsFrom (f :: rest) (f' :: c')) : b.SoundAt f' c' :=
  h.moved hkept hcount hstack hop (causeOk_of_settledFrom h.cause hpend hset)

/-! ### Going on, calls and returns -/

theorem stackOk_congr (hproc : procOf f' = procOf f) : stackOk (f' :: rest) = stackOk (f :: rest) := by
  cases rest <;> simp [stackOk, hproc]

/-- Control goes on from `f` to a later label of its procedure, at which nothing new is settled. -/
def continues (f f' : Frame) : Bool :=
  procOf f' == procOf f && opOf? f' == opOf? f && !settled f'

theorem State.SoundAt.advance (h : s.SoundAt f rest) (hkept : b.latched = s.latched)
    (hpend : b.pending = s.pending) (hcount : b.countersOk) (hf : continues f f' = true) :
    b.SoundAt f' rest := by
  simp only [continues, Bool.and_eq_true, beq_iff_eq, Bool.not_eq_true'] at hf
  obtain ⟨⟨hproc, hop⟩, hset⟩ := hf
  refine h.along hkept hpend hcount ((stackOk_congr hproc).trans h.stack)
    (fun g hg hgs => ?_) (fun g hg o ho => ?_)
  · rcases List.mem_cons.mp hg with rfl | hg
    · rw [hset] at hgs; cases hgs
    · exact List.mem_cons_of_mem _ hg
  · rcases List.mem_cons.mp hg with rfl | hg
    · exact ⟨f, List.mem_cons_self, hop ▸ ho⟩
    · exact ⟨g, List.mem_cons_of_mem _ hg, ho⟩

/-- A label at which a called procedure starts: it is no wrapper and settles nothing. -/
def isCallee (g : Frame) : Bool := opOf? g == none && !settled g

theorem State.SoundAt.call (h : s.SoundAt f rest) (hcall : callOf f = some (procOf g))
    (hg : isCallee g = true) (hkept : b.latched = s.latched) (hpend : b.pending = s.pending)
    (hcount : b.countersOk) : b.SoundAt g (f :: rest) := by
  simp only [isCallee, Bool.and_eq_true, beq_iff_eq, Bool.not_eq_true'] at hg
  obtain ⟨hop, hset⟩ := hg
  have hstack : stackOk (g :: f :: rest) = true := by simp [stackOk, hcall, h.stack]
  refine h.along hkept hpend hcount hstack (fun x hx hxs => ?_) (fun x hx o ho => ?_)
  · rcases List.mem_cons.mp hx with rfl | hx
    · rw [hset] at hxs; cases hxs
    · exact hx
  · rcases List.mem_cons.mp hx with rfl | hx
    · rw [hop] at ho; cases ho
    · exact ⟨x, hx, ho⟩

/-- Above a frame that is no wrapper's stands the frame that called it. -/
theorem stackOk_cons (h : stackOk (f :: rest) = true) (hf : procOf f ≠ .wrapper) :
    ∃ g rest', rest = g :: rest' ∧ callOf g = some (procOf f) ∧ stackOk (g :: rest') = true := by
  cases rest with
  | nil => exact absurd (by simpa [stackOk] using h) hf
  | cons g rest' => exact ⟨g, rest', rfl, by simpa [stackOk] using h⟩

theorem State.SoundAt.ret (h : s.SoundAt f (g :: rest)) (hkept : b.latched = s.latched)
    (hpend : b.pending = s.pending) (hcount : b.countersOk) : b.SoundAt g rest := by
  have hstack : stackOk (g :: rest) = true := by
    have := h.stack
    simp only [stackOk, Bool.and_eq_true] at this
    exact this.2
  exact h.along hkept hpend hcount hstack
    (fun x hx _ => List.mem_cons_of_mem _ hx) (fun x hx o ho => ⟨x, List.mem_cons_of_mem _ hx, ho⟩)

end Sys2Proof.Machine
end

section
/-! SUPPORT. Every statement of the listings answers a next state and keeps the invariant (R33, R34, R38). -/

namespace Sys2Proof.Machine

variable {s t b : State} {f f' g : Frame} {rest : List Frame}

/-! ### The line at a position (R38) -/

/-- The clock pin is driven, and the data direction and the clock level are those of the label. -/
def State.lineAt (s : State) (f : Frame) : Prop :=
  s.line.sckOe = .driven ∧ s.dirOk f ∧ s.line.sckO = clockAt f

/-- The clock pin is driven, and the line is as a PULSE at `p`, called at `g`, has it. -/
def State.pulseAt (s : State) (p : PulseAt) (g : Frame) : Prop :=
  s.line.sckOe = .driven ∧ s.dirOk g ∧ s.work.l = pulseLevelAt g ∧
    s.line.sckO = if p = .p3 then s.work.l else clockAt g

/-- A label at which `lineAt` describes the line: no statement of PULSE or RELEASE, and none before the clock
pin is driven. -/
def plainLine : Frame → Bool
  | .pulse _ | .release | .wrapper .x2a | .connreset .q1dir => false
  | _ => true

theorem lineOk_of_lineAt (hf : plainLine f = true) (h : s.lineAt f) : (s.goto f rest).lineOk := by
  obtain ⟨hclk, hdir, hlev⟩ := h
  cases f with
  | pulse p => cases hf
  | release => cases hf
  | _ => exact ⟨.inr (.inr hclk), hdir, hlev⟩

theorem driven_of_clockDriven (hf : plainLine f = true) (h : s.clockDriven f) : s.line.sckOe = .driven := by
  rcases h with rfl | rfl | hclk
  · cases hf
  · cases hf
  · exact hclk

theorem lineAt_of_lineOk (hf : plainLine f = true) (h : (s.goto f rest).lineOk) : s.lineAt f := by
  cases f with
  | pulse p => cases hf
  | release => cases hf
  | _ =>
    obtain ⟨hclk, hdir, hlev⟩ := h
    exact ⟨driven_of_clockDriven hf hclk, hdir, hlev⟩

/-! ### Going on to a label, and calls -/

theorem State.SoundAt.advance_inv (h : s.SoundAt f rest) (hkept : b.latched = s.latched)
    (hpend : b.pending = s.pending) (hcount : b.countersOk) (hf : continues f f' = true)
    (hplain : plainLine f' = true) (hline : b.lineAt f') : ∃ t, goOn f' rest b = .next t ∧ t.Inv :=
  ⟨_, rfl, (h.advance hkept hpend hcount hf).inv (lineOk_of_lineAt hplain hline)⟩

section Calls
variable (h : s.SoundAt f rest) (hctl : s.ctl = f :: rest)
include h hctl

theorem State.SoundAt.callPulse_inv {l : Level} (hcall : callOf f = some .pulse) (hl : l = pulseLevelAt f)
    (hline : s.lineAt f) : ∃ t, Host.Outcome.next (s.callPulse l) = (.next t : Result) ∧ t.Inv := by
  obtain ⟨hclk, hdir, hlev⟩ := hline
  refine ⟨_, rfl, ?_⟩
  rw [State.callPulse, hctl]
  exact (h.call (g := .pulse .p1) (b := { s with work := { s.work with l := l } }) hcall rfl rfl rfl
    h.counters).inv ⟨hclk, hdir, hl, hlev⟩

theorem State.SoundAt.callRelease_inv (hcall : callOf f = some .release) (hline : s.lineAt f) :
    ∃ t, Host.Outcome.next s.callRelease = (.next t : Result) ∧ t.Inv := by
  obtain ⟨hclk, hdir, hlev⟩ := hline
  refine ⟨_, rfl, ?_⟩
  rw [State.callRelease, hctl]
  exact (h.call (g := .release) hcall rfl rfl rfl h.counters).inv ⟨hclk, hdir, hlev⟩

theorem State.SoundAt.callWrbyte_inv (v : Byte) (hcall : callOf f = some .wrbyte)
    (hline : s.lineAt (.wrbyte .w1)) :
    ∃ t, Host.Outcome.next (s.callWrbyte v) = (.next t : Result) ∧ t.Inv := by
  refine ⟨_, rfl, ?_⟩
  rw [State.callWrbyte, hctl]
  exact (h.call (g := .wrbyte .w1) (b := { s with work := { s.work with v := v } }) hcall rfl rfl rfl
    h.counters).inv (lineOk_of_lineAt rfl hline)

theorem State.SoundAt.callRdbyte_inv (a : Level) (hcall : callOf f = some .rdbyte)
    (hline : s.lineAt (.rdbyte .b1)) :
    ∃ t, Host.Outcome.next (s.callRdbyte a) = (.next t : Result) ∧ t.Inv := by
  refine ⟨_, rfl, ?_⟩
  rw [State.callRdbyte, hctl]
  exact (h.call (g := .rdbyte .b1) (b := { s with work := { s.work with a := a } }) hcall rfl rfl rfl
    h.counters).inv (lineOk_of_lineAt rfl hline)

/-- The call of a procedure without operands; CONNRESET may find the clock pin undriven. -/
theorem State.SoundAt.callProc_inv (hcall : callOf f = some (procOf g)) (hg : isCallee g = true)
    (hline : (s.goto g (f :: rest)).lineOk) :
    ∃ t, Host.Outcome.next (s.callProc g) = (.next t : Result) ∧ t.Inv := by
  refine ⟨_, rfl, ?_⟩
  rw [State.callProc, hctl]
  exact (h.call hcall hg rfl rfl h.counters).inv hline

/-- START is entered with the clock low and the data line either way. -/
theorem State.SoundAt.callStart_inv (hcall : callOf f = some .start) (hclk : s.line.sckOe = .driven)
    (hlev : s.line.sckO = .low) :
    ∃ t, Host.Outcome.next (s.callProc (.start .s1)) = (.next t : Result) ∧ t.Inv :=
  h.callProc_inv hctl hcall rfl (lineOk_of_lineAt rfl ⟨hclk, trivial, hlev⟩)

theorem State.SoundAt.callConnreset_inv (hcall : callOf f = some .connreset)
    (hdir : s.line.sdaOe = .released) (hlev : s.line.sckO = .low) :
    ∃ t, Host.Outcome.next (s.callProc (.connreset .q1dir)) = (.next t : Result) ∧ t.Inv :=
  h.callProc_inv hctl hcall rfl ⟨.inr (.inl rfl), hdir, hlev⟩

end Calls

/-! ### Returns (R34 (c)) -/

/-- The line when the procedure `p`, called at `g`, returns: PULSE leaves its level, RELEASE the released data
line, and every other procedure the clock low and the data line released. -/
def State.returnLine (s : State) (p : Proc) (g : Frame) : Prop :=
  s.line.sckOe = .driven ∧
    match p with
    | .pulse => s.dirOk g ∧ s.line.sckO = pulseLevelAt g
    | .release => s.line.sdaOe = .released ∧ s.line.sckO = clockAt g
    | _ => s.line.sdaOe = .released ∧ s.line.sckO = .low

theorem loopW2_inv (h : s.SoundAt (.wrbyte .w2c) rest) (hline : s.returnLine .pulse (.wrbyte .w2c)) :
    ∃ t, loopW2 rest s = .next t ∧ t.Inv := by
  obtain ⟨hi, hk, hn⟩ := h.counters
  unfold loopW2
  split
  · exact h.advance_inv rfl rfl ⟨(Nat.sub_le _ _).trans hi, hk, hn⟩ rfl rfl hline
  · exact h.advance_inv rfl rfl h.counters rfl rfl hline

theorem loopB2_inv (h : s.SoundAt (.rdbyte .b2c) rest) (hline : s.returnLine .pulse (.rdbyte .b2c)) :
    ∃ t, loopB2 rest s = .next t ∧ t.Inv := by
  obtain ⟨hi, hk, hn⟩ := h.counters
  unfold loopB2
  split
  · exact h.advance_inv rfl rfl ⟨(Nat.sub_le _ _).trans hi, hk, hn⟩ rfl rfl hline
  · exact h.advance_inv rfl rfl h.counters rfl rfl hline

theorem loopQ3_inv (h : s.SoundAt (.connreset .q3b) rest) (hline : s.returnLine .pulse (.connreset .q3b)) :
    ∃ t, loopQ3 rest s = .next t ∧ t.Inv := by
  obtain ⟨hi, hk, hn⟩ := h.counters
  unfold loopQ3
  split
  case isTrue hlt => exact h.advance_inv rfl rfl ⟨hi, hlt, hn⟩ rfl rfl hline
  case isFalse => exact h.advance_inv rfl rfl h.counters rfl rfl hline

theorem loopM3_inv (h : s.SoundAt (.meas .m3c) rest) (hline : s.lineAt (.meas .m3c)) :
    ∃ t, loopM3 rest s = .next t ∧ t.Inv := by
  obtain ⟨hi, hk, hn⟩ := h.counters
  unfold loopM3
  split
  case isTrue hlt => exact h.advance_inv rfl rfl ⟨hi, hk, hlt⟩ rfl rfl hline
  case isFalse => exact h.advance_inv rfl rfl h.counters rfl rfl hline

/-- The failure exit of MEAS goes on to its return with the error class it was entered with. -/
theorem return_m8call_inv (h : s.SoundAt (.meas .m8call) rest) (hline : s.lineAt (.meas .m8ret)) :
    ∃ t, goOn (.meas .m8ret) rest s = .next t ∧ t.Inv := by
  obtain ⟨hfail, hdone⟩ := h.cause
  have hcause : (s.goto (.meas .m8ret) rest).causeOk :=
    ⟨fun _ => hfail (.inl List.mem_cons_self), fun hin => hdone (by simpa using hin)⟩
  have hop : opsFrom (.meas .m8call :: rest) (.meas .m8ret :: rest) := by
    intro g hg op hgop
    rcases List.mem_cons.mp hg with rfl | hg
    · cases hgop
    · exact ⟨g, List.mem_cons_of_mem _ hg, hgop⟩
  have hstack : stackOk (.meas .m8ret :: rest) = true :=
    (stackOk_congr (f := .meas .m8call) (f' := .meas .m8ret) rfl).trans h.stack
  exact ⟨_, rfl, (h.moved rfl h.counters hstack hop hcause).inv (lineOk_of_lineAt rfl hline)⟩

/-- A return into a sound caller goes on soundly, through every frame whose last statement it ends. MEAS, whose
result its caller looks at, returns by other lemmas. -/
theorem finish_inv {c : List Frame} : ∀ {g : Frame} {rest : List Frame} {p : Proc}, c = g :: rest →
    s.SoundAt g rest → callOf g = some p → p ≠ .meas → s.returnLine p g →
    ∃ t, finish s (g :: rest) = .next t ∧ t.Inv := by
  induction c with
  | nil => rintro g rest p ⟨⟩
  | cons g rest ih =>
    rintro _ _ p ⟨⟩ h hcall hp hline
    -- the caller's own last statement has ended: its frame returns as well
    have hlast : procOf g ≠ .wrapper → procOf g ≠ .meas →
        (∀ g', callOf g' = some (procOf g) → s.returnLine (procOf g) g') →
        ∃ t, finish s rest = .next t ∧ t.Inv := by
      intro hwrap hmeas hret
      obtain ⟨g', rest', rfl, hcall', -⟩ := stackOk_cons h.stack hwrap
      exact ih rfl (h.ret rfl rfl h.counters) hcall' hmeas (hret g' hcall')
    cases g with
    | pulse q => cases hcall
    | release => cases hcall
    | wrbyte w =>
      cases w
      case w1 | w2 | w2a | w5 => cases hcall
      case w2c => cases hcall; exact loopW2_inv h hline
      case w6 => cases hcall; exact hlast (by decide) (by decide) (fun _ _ => hline)
      all_goals cases hcall; exact h.advance_inv rfl rfl h.counters rfl rfl hline
    | rdbyte w =>
      cases w
      case b1 | b2 | b2b | b3 | b4 => cases hcall
      case b2c => cases hcall; exact loopB2_inv h hline
      case b7 => cases hcall; exact hlast (by decide) (by decide) (fun _ _ => hline)
      all_goals cases hcall; exact h.advance_inv rfl rfl h.counters rfl rfl hline
    | start c =>
      cases c
      case s2dir | s2lev | s4 => cases hcall
      case s8 => cases hcall; exact hlast (by decide) (by decide) (fun _ _ => hline)
      all_goals cases hcall; exact h.advance_inv rfl rfl h.counters rfl rfl hline
    | connreset c =>
      cases c
      case q1dir | q2dir | q2lev | q3 => cases hcall
      case q3b => cases hcall; exact loopQ3_inv h hline
      case q4 => cases hcall; exact hlast (by decide) (by decide) (fun _ _ => hline)
      all_goals cases hcall; exact h.advance_inv rfl rfl h.counters rfl rfl hline
    | meas c =>
      cases c
      case m3 | m3a | m3b | m3c | m3d | m7 | m8ret => cases hcall
      case m8call => cases hcall; exact return_m8call_inv h hline
      all_goals cases hcall; exact h.advance_inv rfl rfl h.counters rfl rfl hline
    | rdstat c =>
      cases c
      case t4 => cases hcall
      all_goals cases hcall; exact h.advance_inv rfl rfl h.counters rfl rfl hline
    | wrstat c =>
      cases c
      case v4 => cases hcall
      all_goals cases hcall; exact h.advance_inv rfl rfl h.counters rfl rfl hline
    | wrapper x =>
      cases x
      case x3a => cases hcall; exact absurd rfl hp
      case x1a | x2a | x4a | x5a | x6a | x7a =>
        cases hcall; exact h.advance_inv rfl rfl h.counters rfl rfl hline
      all_goals cases hcall

end Sys2Proof.Machine
end

section
/-! SUPPORT. The statements of the listings, procedure by procedure: each answers a next state that meets the invariant. -/

namespace Sys2Proof.Machine

variable {s t b : State} {f f' g : Frame} {rest : List Frame}

/-! ### The order of calls (R34 (g)) -/

/-- How deep a procedure stands under the statements that call it: wrappers are called by nobody. -/
def callDepth : Proc → Nat
  | .pulse | .release => 0
  | .start | .wrbyte | .rdbyte => 1
  | .connreset => 2
  | .meas | .rdstat | .wrstat => 3
  | .wrapper => 4

theorem callDepth_lt {p : Proc} (hcall : callOf g = some p) : callDepth p < callDepth (procOf g) := by
  cases g with
  | pulse | release => cases hcall
  | wrbyte w => cases w <;> cases hcall <;> decide
  | rdbyte w => cases w <;> cases hcall <;> decide
  | start w => cases w <;> cases hcall <;> decide
  | connreset w => cases w <;> cases hcall <;> decide
  | meas w => cases w <;> cases hcall <;> decide
  | rdstat w => cases w <;> cases hcall <;> decide
  | wrstat w => cases w <;> cases hcall <;> decide
  | wrapper x => cases x <;> cases hcall <;> decide

/-! ### The byte frames and the line procedures (R141, R143, R162, R164) -/

theorem stmtWrbyte_inv {w : WrbyteAt} (h : s.SoundAt (.wrbyte w) rest) (hctl : s.ctl = .wrbyte w :: rest)
    (hline : s.lineAt (.wrbyte w)) : ∃ t, stmtWrbyte w rest s = .next t ∧ t.Inv := by
  obtain ⟨hclk, hdir, hlev⟩ := id hline
  obtain ⟨-, hk, hn⟩ := h.counters
  cases w with
  | w1 => exact h.advance_inv rfl rfl h.counters rfl rfl ⟨hclk, rfl, hlev⟩
  | w2 => exact h.advance_inv rfl rfl ⟨le_rfl, hk, hn⟩ rfl rfl hline
  | w2a => exact h.advance_inv rfl rfl h.counters rfl rfl hline
  | w2b => exact h.callPulse_inv hctl rfl rfl hline
  | w2c => exact h.callPulse_inv hctl rfl rfl hline
  | w3 => exact h.callRelease_inv hctl rfl hline
  | w4 => exact h.callPulse_inv hctl rfl rfl hline
  | w5 => exact h.advance_inv rfl rfl h.counters rfl rfl hline
  | w6 => exact h.callPulse_inv hctl rfl rfl hline

theorem stmtRdbyte_inv {w : RdbyteAt} (h : s.SoundAt (.rdbyte w) rest) (hctl : s.ctl = .rdbyte w :: rest)
    (hline : s.lineAt (.rdbyte w)) : ∃ t, stmtRdbyte w rest s = .next t ∧ t.Inv := by
  obtain ⟨hclk, hdir, hlev⟩ := id hline
  obtain ⟨-, hk, hn⟩ := h.counters
  cases w with
  | b1 => exact h.advance_inv rfl rfl h.counters rfl rfl hline
  | b2 => exact h.advance_inv rfl rfl ⟨le_rfl, hk, hn⟩ rfl rfl hline
  | b2a => exact h.callPulse_inv hctl rfl rfl hline
  | b2b => exact h.advance_inv rfl rfl h.counters rfl rfl hline
  | b2c => exact h.callPulse_inv hctl rfl rfl hline
  | b3 => exact h.advance_inv rfl rfl h.counters rfl rfl ⟨hclk, rfl, hlev⟩
  | b4 => exact h.advance_inv rfl rfl h.counters rfl rfl hline
  | b5 => exact h.callPulse_inv hctl rfl rfl hline
  | b6 => exact h.callPulse_inv hctl rfl rfl hline
  | b7 => exact h.callRelease_inv hctl rfl hline

theorem stmtStart_inv {c : StartAt} (h : s.SoundAt (.start c) rest) (hctl : s.ctl = .start c :: rest)
    (hline : s.lineAt (.start c)) : ∃ t, stmtStart c rest s = .next t ∧ t.Inv := by
  obtain ⟨hclk, hdir, hlev⟩ := id hline
  cases c with
  | s1 => exact h.callPulse_inv hctl rfl rfl hline
  | s2dir => exact h.advance_inv rfl rfl h.counters rfl rfl ⟨hclk, rfl, hlev⟩
  | s2lev => exact h.advance_inv rfl rfl h.counters rfl rfl hline
  | s3 => exact h.callPulse_inv hctl rfl rfl hline
  | s4 => exact h.advance_inv rfl rfl h.counters rfl rfl hline
  | s5 => exact h.callPulse_inv hctl rfl rfl hline
  | s6 => exact h.callPulse_inv hctl rfl rfl hline
  | s7 => exact h.callRelease_inv hctl rfl hline
  | s8 => exact h.callPulse_inv hctl rfl rfl hline

/-- Q1 drives the clock pin, which may be undriven before it; from then on the line is described by the label. -/
theorem stmtConnreset_inv {c : ConnresetAt} (h : s.SoundAt (.connreset c) rest)
    (hctl : s.ctl = .connreset c :: rest) (hline : s.lineOk) :
    ∃ t, stmtConnreset c rest s = .next t ∧ t.Inv := by
  obtain ⟨hi, -, hn⟩ := h.counters
  rw [← State.goto_of_ctl hctl] at hline
  by_cases hq : c = .q1dir
  case pos =>
    subst hq
    obtain ⟨-, hdir, hlev⟩ := hline
    exact h.advance_inv rfl rfl h.counters rfl rfl ⟨rfl, hdir, hlev⟩
  case neg =>
    have hplain : plainLine (.connreset c) = true := by
      cases c with
      | q1dir => exact absurd rfl hq
      | _ => rfl
    replace hline : s.lineAt (.connreset c) := lineAt_of_lineOk hplain hline
    obtain ⟨hclk, hdir, hlev⟩ := id hline
    cases c with
    | q1dir => exact absurd rfl hq
    | q1pulse => exact h.callPulse_inv hctl rfl rfl hline
    | q2dir => exact h.advance_inv rfl rfl h.counters rfl rfl ⟨hclk, rfl, hlev⟩
    | q2lev => exact h.advance_inv rfl rfl h.counters rfl rfl hline
    | q3 => exact h.advance_inv rfl rfl ⟨hi, show 1 ≤ Config.resetPulses by decide, hn⟩ rfl rfl hline
    | q3a => exact h.callPulse_inv hctl rfl rfl hline
    | q3b => exact h.callPulse_inv hctl rfl rfl hline
    | q4 => exact h.callStart_inv hctl rfl hclk hlev

/-! ### MEAS (R166) -/

/-- X3's statement X3a is the only call of MEAS. -/
theorem eq_x3a_of_calls_meas (hcall : callOf g = some .meas) : g = .wrapper .x3a := by
  have hlevel := callDepth_lt hcall
  cases g with
  | wrapper x =>
    cases x
    case x3a => rfl
    all_goals cases hcall
  | _ => simp [procOf, callDepth] at hlevel

theorem stack_of_wrapper {x : WrapAt} (h : stackOk (.wrapper x :: rest) = true) : rest = [] := by
  cases rest with
  | nil => rfl
  | cons g rest' =>
    simp only [stackOk, Bool.and_eq_true, beq_iff_eq] at h
    obtain ⟨hcall, -⟩ := h
    have hlevel := callDepth_lt hcall
    cases g <;> simp [procOf, callDepth] at hlevel

theorem stack_of_meas {c : MeasAt} (h : stackOk (.meas c :: rest) = true) : rest = [.wrapper .x3a] := by
  obtain ⟨g, rest', rfl, hcall, hstack⟩ := stackOk_cons h nofun
  obtain rfl := eq_x3a_of_calls_meas hcall
  rw [stack_of_wrapper hstack]

/-- MEAS returns to X3 with a result that its completion can report. -/
theorem return_meas_inv {c : MeasAt} (h : s.SoundAt (.meas c) [.wrapper .x3a]) (hline : s.lineAt (.wrapper .x3b))
    (r : MeasResult) (hr : r ≠ .failure .none ∧ r ≠ .failure .noAck) :
    ∃ t, finish { s with work := { s.work with res := r } } [.wrapper .x3a] = .next t ∧ t.Inv := by
  let u : State := { s with work := { s.work with res := r } }
  have hcause : (u.goto (.wrapper .x3b) []).causeOk := ⟨by simp, fun _ => hr⟩
  have hop : opsFrom [.meas c, .wrapper .x3a] [.wrapper .x3b] := by
    intro g hg op hgop
    obtain rfl := List.mem_singleton.mp hg
    exact ⟨.wrapper .x3a, by simp, hgop⟩
  exact ⟨_, rfl, (h.moved (b := u) rfl h.counters rfl hop hcause).inv (lineOk_of_lineAt rfl hline)⟩

/-- MEAS enters its failure exit with a pending error class. -/
theorem fail_meas_inv {c : MeasAt} (h : s.SoundAt (.meas c) [.wrapper .x3a]) (hline : s.lineAt (.meas .m8call))
    (e : Cause) (he : e = .pollTimeout ∨ e = .checksumMismatch) :
    ∃ t, goOn (.meas .m8call) [.wrapper .x3a] { s with work := { s.work with cause := e } } = .next t ∧ t.Inv := by
  let u : State := { s with work := { s.work with cause := e } }
  have hcause : (u.goto (.meas .m8call) [.wrapper .x3a]).causeOk := ⟨fun _ => he, by simp⟩
  have hop : opsFrom [.meas c, .wrapper .x3a] [.meas .m8call, .wrapper .x3a] := by
    intro g hg op hgop
    obtain rfl | rfl := by simpa using hg
    · cases hgop
    · exact ⟨.wrapper .x3a, by simp, hgop⟩
  exact ⟨_, rfl, (h.moved (b := u) rfl h.counters rfl hop hcause).inv (lineOk_of_lineAt rfl hline)⟩

theorem stmtMeas_m3b_ready (hs : s.work.s = .low) : stmtMeas .m3b rest s = goOn (.meas .m4) rest s := if_pos hs

theorem stmtMeas_m3b_notReady (hs : s.work.s ≠ .low) : stmtMeas .m3b rest s = goOn (.meas .m3c) rest s := if_neg hs

theorem stmtMeas_m7_match (hck : s.work.ck = expected s.crcEn s.work.hi s.work.lo) :
    stmtMeas .m7 rest s =
      finish { s with work := { s.work with res := .success (rawOf s.work.hi s.work.lo) } } rest := if_pos hck

theorem stmtMeas_m7_mismatch (hck : s.work.ck ≠ expected s.crcEn s.work.hi s.work.lo) :
    stmtMeas .m7 rest s =
      goOn (.meas .m8call) rest { s with work := { s.work with cause := .checksumMismatch } } := if_neg hck

/-- The statements of MEAS but the yield M3c. -/
theorem stmtMeas_inv {c : MeasAt} (hc : c ≠ .m3c) (h : s.SoundAt (.meas c) rest) (hctl : s.ctl = .meas c :: rest)
    (hline : s.lineAt (.meas c)) : ∃ t, stmtMeas c rest s = .next t ∧ t.Inv := by
  obtain rfl := stack_of_meas h.stack
  obtain ⟨hi, hk, -⟩ := h.counters
  obtain ⟨hclk, hdir, hlev⟩ := id hline
  cases c with
  | m1 => exact h.callStart_inv hctl rfl hclk hlev
  | m2 => exact h.callWrbyte_inv hctl _ rfl hline
  | m3 => exact h.advance_inv rfl rfl ⟨hi, hk, show 1 ≤ Config.pollMax by decide⟩ rfl rfl hline
  | m3a => exact h.advance_inv rfl rfl h.counters rfl rfl hline
  | m3b =>
    by_cases hs : s.work.s = .low
    · rw [stmtMeas_m3b_ready hs]
      exact h.advance_inv rfl rfl h.counters rfl rfl hline
    · rw [stmtMeas_m3b_notReady hs]
      exact h.advance_inv rfl rfl h.counters rfl rfl hline
  | m3c => exact absurd rfl hc
  | m3d => exact fail_meas_inv h hline _ (.inl rfl)
  | m4 => exact h.callRdbyte_inv hctl _ rfl hline
  | m5 => exact h.callRdbyte_inv hctl _ rfl hline
  | m6 => exact h.callRdbyte_inv hctl _ rfl hline
  | m7 =>
    by_cases hck : s.work.ck = expected s.crcEn s.work.hi s.work.lo
    · rw [stmtMeas_m7_match hck]
      exact return_meas_inv h hline _ ⟨nofun, nofun⟩
    · rw [stmtMeas_m7_mismatch hck]
      exact fail_meas_inv h hline _ (.inr rfl)
  | m8call => exact h.callConnreset_inv hctl rfl hdir hlev
  | m8ret =>
    obtain ⟨hfail, -⟩ := h.cause
    have hc : s.work.cause = .pollTimeout ∨ s.work.cause = .checksumMismatch :=
      hfail (.inr List.mem_cons_self)
    refine return_meas_inv h hline _ ?_
    rcases hc with hc | hc <;> simp [hc]

/-! ### RDSTAT and WRSTAT (R177, R179) -/

theorem stmtRdstat_inv {c : RdstatAt} (h : s.SoundAt (.rdstat c) rest) (hctl : s.ctl = .rdstat c :: rest)
    (hline : s.lineAt (.rdstat c)) : ∃ t, stmtRdstat c rest s = .next t ∧ t.Inv := by
  obtain ⟨hclk, hdir, hlev⟩ := id hline
  cases c with
  | t1 => exact h.callStart_inv hctl rfl hclk hlev
  | t2 => exact h.callWrbyte_inv hctl _ rfl hline
  | t3 => exact h.callRdbyte_inv hctl _ rfl hline
  | t4 =>
    obtain ⟨g, rest', rfl, hcall, -⟩ := stackOk_cons h.stack nofun
    exact finish_inv rfl (h.ret rfl rfl h.counters) hcall nofun ⟨hclk, hdir, hlev⟩

theorem stmtWrstat_inv {c : WrstatAt} (h : s.SoundAt (.wrstat c) rest) (hctl : s.ctl = .wrstat c :: rest)
    (hline : s.lineAt (.wrstat c)) : ∃ t, stmtWrstat c rest s = .next t ∧ t.Inv := by
  obtain ⟨hclk, hdir, hlev⟩ := id hline
  cases c with
  | v1 => exact h.callStart_inv hctl rfl hclk hlev
  | v2 => exact h.callWrbyte_inv hctl _ rfl hline
  | v3 => exact h.callWrbyte_inv hctl _ rfl hline
  | v4 =>
    obtain ⟨g, rest', rfl, hcall, -⟩ := stackOk_cons h.stack nofun
    exact finish_inv rfl (h.ret rfl rfl h.counters) hcall nofun ⟨hclk, hdir, hlev⟩

/-! ### RELEASE and the wrappers (R128, R163 to R179) -/

theorem stmtRelease_inv (h : s.SoundAt .release (g :: rest)) (hclk : s.line.sckOe = .driven)
    (hlev : s.line.sckO = clockAt g) : ∃ t, stmtRelease (g :: rest) s = .next t ∧ t.Inv := by
  obtain ⟨g', rest', heq, hcall, -⟩ := stackOk_cons h.stack nofun
  obtain ⟨rfl, rfl⟩ := List.cons.inj heq
  exact finish_inv rfl (h.ret (b := s.sdaDir .released) rfl rfl h.counters) hcall nofun ⟨hclk, rfl, hlev⟩

/-- A completion leaves the block idle, with the line at rest and a result that names an error class exactly
when ERR is 1. -/
theorem complete_inv (h : s.SoundAt f rest) (hline : s.lineAt (.wrapper .x1b)) {u : State}
    (hpos : u.position = s.position) (hpins : u.pins = s.pins) (hyield : u.stat.yieldReq = s.stat.yieldReq)
    (hwcnt : u.work.wcnt = s.work.wcnt) {err : Bool} {c : Cause} (herr : err = true ↔ c ≠ .none) :
    (u.done err c).Inv := by
  simp only [State.position, Prod.mk.injEq] at hpos
  obtain ⟨hln, hctl, hcmd, -, hop, harg, hi, hk, hn, -⟩ := hpos
  obtain ⟨hclk, hdir, hlev⟩ := hline
  obtain ⟨hlegal, hlop, hlarg, -⟩ := h.command
  obtain ⟨hci, hck, hcn⟩ := h.counters
  exact {
    busyIff := by simp
    stack := rfl
    line := ⟨hln ▸ hclk, hln ▸ hlev, hln ▸ hdir⟩
    wait := .inl (hwcnt.trans h.wcnt)
    yield_ := yieldOk_of_not_yielding (hyield.trans h.yieldReq)
    cause := ⟨by simp, by simp⟩
    err := herr
    counters := ⟨hi ▸ hci, hk ▸ hck, hn ▸ hcn⟩
    command := ⟨hcmd ▸ hlegal, hop.trans (hcmd ▸ hlop), harg.trans (hcmd ▸ hlarg), by simp⟩
    rst := rstOk_of_released (by rw [State.done_pins, hpins]; exact h.rst) }

end Sys2Proof.Machine
end

section
/-! PROOFS. The invariant: every step from a sound state answers a sound state (R33, R34, R38, R250), and what it says of an
idle block and of the stack. -/

namespace Sys2Proof.Machine

variable {s t b : State} {f f' g : Frame} {rest : List Frame}

/-! ### The wrappers (R163, R165, R169, R177, R179, R142, R144) -/

theorem ackCause_ne_none_iff (e : Level) : e = true ↔ ackCause e ≠ .none := by cases e <;> simp [ackCause]

theorem completeMeas_inv (h : s.SoundAt (.wrapper .x3b) rest) (hline : s.lineAt (.wrapper .x1b)) :
    (completeMeas s).Inv := by
  obtain ⟨-, hdone⟩ := h.cause
  obtain ⟨hnone, -⟩ := hdone List.mem_cons_self
  unfold completeMeas
  split
  case h_1 raw _ =>
    cases selOperand s.work.arg
    · exact complete_inv h hline (u := s.commitRaw .temp raw) rfl rfl rfl rfl (by simp)
    · exact complete_inv h hline (u := s.commitRaw .humi raw) rfl rfl rfl rfl (by simp)
  case h_2 c hres =>
    have hc : c ≠ .none := fun hc => hnone (by rw [State.goto_work, hres, hc])
    exact complete_inv h hline rfl rfl rfl rfl (by simp [hc])

theorem stmtWrapper_inv {x : WrapAt} (h : s.SoundAt (.wrapper x) rest) (hctl : s.ctl = .wrapper x :: rest)
    (hline : s.lineOk) : ∃ t, Host.Outcome.next (stmtWrapper x s) = (.next t : Result) ∧ t.Inv := by
  rw [← State.goto_of_ctl hctl] at hline
  by_cases hx : x = .x2a
  case pos =>
    subst hx
    obtain ⟨-, hdir, hlev⟩ := hline
    exact h.callConnreset_inv hctl rfl hdir hlev
  case neg =>
    have hplain : plainLine (.wrapper x) = true := by
      cases x with
      | x2a => exact absurd rfl hx
      | _ => rfl
    replace hline : s.lineAt (.wrapper x) := lineAt_of_lineOk hplain hline
    obtain ⟨hclk, hdir, hlev⟩ := id hline
    cases x with
    | x1a => exact h.callStart_inv hctl rfl hclk hlev
    | x2a => exact absurd rfl hx
    | x3a => exact h.callProc_inv hctl rfl rfl (lineOk_of_lineAt rfl hline)
    | x4a => exact h.callProc_inv hctl rfl rfl (lineOk_of_lineAt rfl hline)
    | x5a => exact h.callProc_inv hctl rfl rfl (lineOk_of_lineAt rfl hline)
    | x6a => exact h.callWrbyte_inv hctl _ rfl hline
    | x7a => exact h.callRdbyte_inv hctl _ rfl hline
    | x1b => exact ⟨_, rfl, complete_inv h hline rfl rfl rfl rfl (by simp)⟩
    | x2b => exact ⟨_, rfl, complete_inv h hline rfl rfl rfl rfl (by simp)⟩
    | x3b => exact ⟨_, rfl, completeMeas_inv h hline⟩
    | x4b =>
      exact ⟨_, rfl, complete_inv h hline (u := s.setRdata s.work.r) rfl rfl rfl rfl (ackCause_ne_none_iff _)⟩
    | x5b => exact ⟨_, rfl, complete_inv h hline rfl rfl rfl rfl (ackCause_ne_none_iff _)⟩
    | x6b => exact ⟨_, rfl, complete_inv h hline rfl rfl rfl rfl (ackCause_ne_none_iff _)⟩
    | x7b =>
      exact ⟨_, rfl, complete_inv h hline (u := s.setRdata s.work.r) rfl rfl rfl rfl (by simp)⟩

/-! ### Delays and PULSE (R121, R127, R168) -/

/-- The line at a statement of PULSE, called at `g`. -/
theorem State.Inv.pulseAt (h : s.Inv) {p : PulseAt} (hctl : s.ctl = .pulse p :: rest) :
    ∃ g rest', rest = g :: rest' ∧ callOf g = some .pulse ∧ s.pulseAt p g := by
  obtain ⟨g, rest', rfl, hcall, -⟩ := stackOk_cons (f := .pulse p) (hctl ▸ h.stack) nofun
  have hline := h.line
  rw [State.lineOk, hctl] at hline
  exact ⟨g, rest', rfl, hcall, hline⟩

theorem State.SoundAt.pulse_inv {p p' : PulseAt} (h : s.SoundAt (.pulse p) (g :: rest))
    (hkept : b.latched = s.latched) (hpend : b.pending = s.pending) (hcount : b.countersOk)
    (hline : b.pulseAt p' g) : ∃ t, goOn (.pulse p') (g :: rest) b = .next t ∧ t.Inv :=
  ⟨_, rfl, (h.advance hkept hpend hcount rfl).inv hline⟩

/-- A label at which a delay can stand. -/
def delayAt : Frame → Bool
  | .pulse .p1 | .pulse .p3 | .meas .m3c => true
  | _ => false

/-- The end of a delay goes on soundly. -/
theorem leaveDelay_inv (h : s.Inv) (hrst : s.pins.rst = false) (hyield : s.stat.yieldReq = false)
    (hwcnt : s.work.wcnt = 0) (hctl : s.ctl = f :: rest) (hf : delayAt f = true) :
    ∃ t, leaveDelay s = .next t ∧ t.Inv := by
  have hsound := h.soundAt hctl hrst hyield hwcnt
  unfold leaveDelay
  cases f with
  | pulse p =>
    obtain ⟨g, rest', rfl, hcall, hline⟩ := h.pulseAt hctl
    obtain ⟨hclk, hdir, hl, hlev⟩ := id hline
    rw [hctl]
    cases p with
    | p1 => exact hsound.pulse_inv rfl rfl h.counters hline
    | p2 => cases hf
    | p3 => exact finish_inv rfl (hsound.ret rfl rfl h.counters) hcall nofun ⟨hclk, hdir, hlev.trans hl⟩
  | meas c =>
    cases c
    case m3c =>
      have hline := h.line
      rw [← State.goto_of_ctl hctl] at hline
      rw [hctl]
      exact loopM3_inv hsound (lineAt_of_lineOk rfl hline)
    all_goals cases hf
  | _ => cases hf

/-- The ticks that a WAIT at `f` loads (R127, R168). -/
def waitTicks : Frame → Nat
  | .pulse .p1 => Config.setupTicks
  | .pulse .p3 => Config.holdTicks
  | .meas .m3c => Config.pollWaitTicks
  | _ => 0

/-- A running WAIT stands at a WAIT statement, and of MEAS at one without a hook. -/
theorem waitOk_iff (hctl : s.ctl = f :: rest) (hw : s.work.wcnt ≠ 0) :
    s.waitOk ↔ delayAt f = true ∧ s.work.wcnt ≤ waitTicks f ∧
      (f = .meas .m3c → hookOperand s.work.arg = false) := by
  simp only [State.waitOk, hw, false_or, hctl]
  cases f with
  | pulse p => cases p <;> simp [delayAt, waitTicks]
  | meas c => cases c <;> simp [delayAt, waitTicks]
  | _ => simp [delayAt]

/-- The state with `w` ticks of a WAIT to go keeps the invariant, at a statement that loads as many. -/
theorem waiting_inv (h : s.Inv) (hrst : s.pins.rst = false) (hyield : s.stat.yieldReq = false)
    (hctl : s.ctl = f :: rest) (hf : delayAt f = true)
    (hhook : f = .meas .m3c → hookOperand s.work.arg = false) (hpos : t.position = s.position)
    (hpins : t.pins = s.pins) (hstat : t.stat = s.stat) (hle : t.work.wcnt ≤ waitTicks f) : t.Inv := by
  have htctl : t.ctl = f :: rest := (congrArg (fun p => p.2.1) hpos).trans hctl
  have htarg : t.work.arg = s.work.arg := congrArg (fun p => p.2.2.2.2.2.1) hpos
  refine h.of_position hpos ?_ (yieldOk_of_not_yielding (hstat ▸ hyield)) (rstOk_of_released (hpins ▸ hrst))
  by_cases hw : t.work.wcnt = 0
  · exact .inl hw
  · exact (waitOk_iff htctl hw).mpr ⟨hf, hle, fun h => htarg ▸ hhook h⟩

/-- A statement that starts a WAIT, and the WAIT of no ticks that is over at once. -/
theorem startWait_inv (h : s.Inv) (hrst : s.pins.rst = false) (hyield : s.stat.yieldReq = false)
    (hctl : s.ctl = f :: rest) (hf : delayAt f = true)
    (hhook : f = .meas .m3c → hookOperand s.work.arg = false) :
    ∃ t, startWait (waitTicks f) s = .next t ∧ t.Inv := by
  have hinv := waiting_inv (t := { s.record (.wait (waitTicks f)) with
    work := { s.work with wcnt := waitTicks f } }) h hrst hyield hctl hf hhook rfl rfl rfl le_rfl
  unfold startWait
  by_cases hn : waitTicks f = 0
  · rw [if_pos hn]
    exact leaveDelay_inv hinv hrst hyield hn hctl hf
  · rw [if_neg hn]
    exact ⟨_, rfl, hinv⟩

theorem waitTick_inv (h : s.Inv) (hrst : s.pins.rst = false) (hyield : s.stat.yieldReq = false)
    (hw : 0 < s.work.wcnt) : ∃ t, waitTick s = .next t ∧ t.Inv := by
  obtain ⟨f, rest, hctl⟩ : ∃ f rest, s.ctl = f :: rest := by
    rcases hctl : s.ctl with _ | ⟨f, rest⟩
    · have := h.wait
      simp [State.waitOk, hctl, hw.ne'] at this
    · exact ⟨f, rest, rfl⟩
  obtain ⟨hf, hle, hhook⟩ := (waitOk_iff hctl hw.ne').mp h.wait
  have hinv := waiting_inv (t := { s.tick with work := { s.work with wcnt := s.work.wcnt - 1 } }) h hrst hyield
    hctl hf hhook rfl rfl rfl ((Nat.sub_le _ _).trans hle)
  unfold waitTick
  by_cases hn : s.work.wcnt - 1 = 0
  · rw [if_pos (show _ from hn)]
    exact leaveDelay_inv hinv hrst hyield hn hctl hf
  · rw [if_neg (show ¬ _ from hn)]
    exact ⟨_, rfl, hinv⟩

theorem endYield_inv (h : s.Inv) (hrst : s.pins.rst = false) (hyield : s.stat.yieldReq = true) :
    ∃ t, endYield s = .next t ∧ t.Inv := by
  obtain ⟨hwcnt, -, rest, hctl⟩ := h.yield_ hyield
  have hinv : State.Inv { s with stat := { s.stat with yieldReq := false } } :=
    h.of_position rfl (.inl hwcnt) (yieldOk_of_not_yielding rfl) (rstOk_of_released hrst)
  exact leaveDelay_inv hinv hrst rfl hwcnt hctl rfl

theorem stmtPulse_inv {p : PulseAt} (h : s.Inv) (hrst : s.pins.rst = false) (hyield : s.stat.yieldReq = false)
    (hwcnt : s.work.wcnt = 0) (hctl : s.ctl = .pulse p :: rest) :
    ∃ t, stmtPulse p rest s = .next t ∧ t.Inv := by
  cases p with
  | p1 => exact startWait_inv h hrst hyield hctl rfl nofun
  | p2 =>
    have hsound := h.soundAt hctl hrst hyield hwcnt
    obtain ⟨g, rest', rfl, -, hclk, hdir, hl, -⟩ := h.pulseAt hctl
    exact hsound.pulse_inv rfl rfl h.counters ⟨hclk, hdir, hl, rfl⟩
  | p3 => exact startWait_inv h hrst hyield hctl rfl nofun

theorem startYield_inv (h : s.Inv) (hrst : s.pins.rst = false) (hyield : s.stat.yieldReq = false)
    (hwcnt : s.work.wcnt = 0) (hctl : s.ctl = .meas .m3c :: rest) :
    ∃ t, startYield (hookOperand s.work.arg) s = .next t ∧ t.Inv := by
  cases hhook : hookOperand s.work.arg with
  | false => exact startWait_inv h hrst hyield hctl rfl (fun _ => hhook)
  | true =>
    exact ⟨_, rfl, h.of_position rfl (.inl hwcnt) (fun _ => ⟨hwcnt, hhook, rest, hctl⟩)
      (rstOk_of_released hrst)⟩

/-! ### The block's own move -/

theorem statement_inv (h : s.Inv) (hrst : s.pins.rst = false) (hyield : s.stat.yieldReq = false)
    (hwcnt : s.work.wcnt = 0) (hctl : s.ctl = f :: rest) : ∃ t, statement f rest s = .next t ∧ t.Inv := by
  have hsound := h.soundAt hctl hrst hyield hwcnt
  have hline : plainLine f = true → s.lineAt f := fun hf =>
    lineAt_of_lineOk hf ((State.goto_of_ctl hctl).symm ▸ h.line)
  cases f with
  | pulse p => exact stmtPulse_inv h hrst hyield hwcnt hctl
  | release =>
    obtain ⟨g, rest', rfl, hcall, -⟩ := stackOk_cons hsound.stack nofun
    have hrel := h.line
    rw [State.lineOk, hctl] at hrel
    obtain ⟨hclk, -, hlev⟩ := hrel
    exact stmtRelease_inv hsound hclk hlev
  | wrbyte w => exact stmtWrbyte_inv hsound hctl (hline rfl)
  | rdbyte w => exact stmtRdbyte_inv hsound hctl (hline rfl)
  | start c => exact stmtStart_inv hsound hctl (hline rfl)
  | connreset c => exact stmtConnreset_inv hsound hctl h.line
  | meas c =>
    by_cases hc : c = .m3c
    · subst hc
      exact startYield_inv h hrst hyield hwcnt hctl
    · exact stmtMeas_inv hc hsound hctl (hline rfl)
  | rdstat c => exact stmtRdstat_inv hsound hctl (hline rfl)
  | wrstat c => exact stmtWrstat_inv hsound hctl (hline rfl)
  | wrapper x => exact stmtWrapper_inv hsound hctl h.line

theorem State.Inv.tick (h : s.Inv) (hrst : s.pins.rst = false) : s.tick.Inv :=
  h.of_position rfl h.wait h.yield_ (rstOk_of_released hrst)

theorem blockMove_inv (h : s.Inv) : ∃ t, blockMove s = .next t ∧ t.Inv := by
  unfold blockMove
  split
  case isTrue => exact ⟨s, rfl, h⟩
  case isFalse hrst =>
    replace hrst : s.pins.rst = false := by simpa using hrst
    split
    case isTrue hyield =>
      split
      · exact endYield_inv h hrst hyield
      · exact ⟨_, rfl, h.tick hrst⟩
    case isFalse hyield =>
      replace hyield : s.stat.yieldReq = false := by simpa using hyield
      split
      case isTrue hw => exact waitTick_inv h hrst hyield hw
      case isFalse hw =>
        replace hw : s.work.wcnt = 0 := by omega
        split
        · exact ⟨_, rfl, h.tick hrst⟩
        case h_2 f rest hctl => exact statement_inv h hrst hyield hw hctl

/-! ### The host's moves (R40, R62, R63, R160, R228, R250) -/

theorem State.Inv.taken (h : s.Inv) (moves : List Move) : (s.taken moves).Inv :=
  h.of_position rfl h.wait h.yield_ fun hrst => congrArg (State.taken moves) (h.rst hrst)

theorem State.Inv.hostRead (h : s.Inv) (a : Addr) : (s.hostRead a).Inv :=
  h.of_position rfl h.wait h.yield_ fun hrst =>
    congrArg (fun u : State => { u with world := (s.hostRead a).world }) (h.rst hrst)

theorem State.Inv.hostWrite (h : s.Inv) (a : Addr) (v : Word) : (s.hostWrite a v).Inv := by
  unfold State.hostWrite
  split
  case isTrue hw =>
    obtain ⟨-, -, hrst⟩ := hw
    exact h.of_position rfl h.wait h.yield_ (rstOk_of_released hrst)
  case isFalse => exact h

theorem State.Inv.reject (h : s.Inv) : s.reject.Inv := by
  unfold State.reject
  split
  case isTrue => exact h
  case isFalse hrst => exact h.of_position rfl h.wait h.yield_ (rstOk_of_released (by simpa using hrst))

theorem State.Inv.driveAck (h : s.Inv) (l : Level) : (s.driveAck l).Inv :=
  h.of_position rfl h.wait h.yield_ fun hrst => congrArg (State.driveAck l) (h.rst hrst)

theorem State.Inv.releaseRst (h : s.Inv) : s.releaseRst.Inv :=
  h.of_position rfl h.wait h.yield_ (rstOk_of_released rfl)

/-- CMD holds the CONNRESET command at reset, which is what runs (R39). -/
theorem commandOk_resetBlock (s : State) : s.resetBlock.commandOk := by
  have hfields : fieldsOf s.resetBlock.cmd = ⟨0, 0x2, 0x00⟩ := show fieldsOf 0x00000200 = _ by decide
  rw [State.commandOk, hfields]
  refine ⟨rfl, rfl, rfl, fun x hx => ?_⟩
  obtain rfl : x = .x2a := by simpa [State.resetBlock] using hx
  rfl

/-- Every piece of the block at its reset value, whatever the pins and the agents (R39). -/
theorem resetBlock_inv (s : State) (hs : s = s.resetBlock) : s.Inv := by
  rw [hs]
  exact {
    busyIff := by simp [State.resetBlock, Stat.reset]
    stack := rfl
    line := ⟨.inl rfl, rfl, rfl⟩
    wait := .inl rfl
    yield_ := yieldOk_of_not_yielding rfl
    cause := ⟨by simp [State.resetBlock], by simp [State.resetBlock]⟩
    err := by simp [State.errOk, State.resetBlock, Stat.reset]
    counters := ⟨Nat.zero_le _, Nat.zero_le _, Nat.zero_le _⟩
    command := commandOk_resetBlock s
    rst := fun _ => rfl }

theorem waitYield_inv (h : s.Inv) : (waitYield s).Inv := by
  rcases waitYield_cases s with ⟨-, heq⟩ | ⟨-, -, heq⟩ <;> rw [heq]
  · exact h
  · exact h.taken _

theorem waitIdle_inv (h : s.Inv) : (waitIdle s).Inv := by
  unfold waitIdle
  cases s.stat.busy
  · exact h.hostRead 1
  · exact (h.hostRead 1).taken _

theorem hostAct_inv (h : s.Inv) (a : HostAct) : ∃ t, hostAct a s = .next t ∧ t.Inv := by
  cases a with
  | read addr => exact ⟨_, rfl, h.hostRead addr⟩
  | write addr v => exact ⟨_, rfl, h.hostWrite addr v⟩
  | hookReturn =>
    cases hyield : s.stat.yieldReq with
    | false => exact ⟨s, hookReturnOutsideAYieldIsIgnored s hyield, h⟩
    | true =>
      have hrst : s.pins.rst = false := by
        rw [← Bool.not_eq_true]
        intro hrst
        rw [h.rst hrst] at hyield
        cases hyield
      rw [hostAct, if_pos hyield]
      exact endYield_inv h hrst hyield
  | driveAck l => exact ⟨_, rfl, h.driveAck l⟩
  | driveRst l =>
    cases l with
    | false => exact ⟨_, rfl, h.releaseRst⟩
    | true => exact ⟨_, rfl, resetBlock_inv s.assertRst rfl⟩

theorem wrapperOp_wrapperOf (i : Instr) : wrapperOp (wrapperOf i) = i.fields.op := by cases i <;> rfl

/-- An idle block has the idle line and nothing in progress (R38). -/
theorem State.Inv.idle (h : s.Inv) (hbusy : s.stat.busy = false) : s.idleLine ∧ s.ready := by
  have hctl := h.busyIff.mp hbusy
  have hline := h.line
  rw [State.lineOk, hctl] at hline
  have hrst : s.pins.rst = false := by
    rw [← Bool.not_eq_true]
    intro hrst
    rw [h.rst hrst] at hbusy
    cases hbusy
  have hyield : s.stat.yieldReq = false := by
    rw [← Bool.not_eq_true]
    intro hyield
    obtain ⟨-, -, rest, hctl'⟩ := h.yield_ hyield
    simp [hctl] at hctl'
  have hwcnt : s.work.wcnt = 0 := by
    rcases h.wait with hw | hw
    · exact hw
    · simp [hctl] at hw
  exact ⟨hline, hrst, hbusy, hyield, hwcnt, hctl⟩

/-- An accepted command starts its wrapper on the idle line. -/
theorem accept_inv (h : s.Inv) (hbusy : s.stat.busy = false) (i : Instr) : (s.accept i (wrapperOf i)).Inv := by
  obtain ⟨⟨hclk, hlev, hdir⟩, hrst, -, hyield, hwcnt, -⟩ := h.idle hbusy
  have hlegal : (fieldsOf (encode i)).legal = true := exists_command_iff_legal.mp ⟨i, decode_encode i⟩
  exact {
    busyIff := by simp
    stack := rfl
    line := ⟨.inr (.inr hclk), by cases i <;> exact hdir, by cases i <;> exact hlev⟩
    wait := .inl hwcnt
    yield_ := yieldOk_of_not_yielding hyield
    cause := ⟨by simp, by cases i <;> simp [wrapperOf]⟩
    err := h.err
    counters := h.counters
    command := ⟨hlegal, rfl, rfl, fun x hx => by
      obtain rfl : x = wrapperOf i := by simpa using hx
      rw [wrapperOp_wrapperOf, State.accept_work, fieldsOf_encode]⟩
    rst := rstOk_of_released hrst }

theorem exec_inv (h : s.Inv) (i : Instr) : ∃ t, exec i s = .next t ∧ t.Inv := by
  rw [exec_eq_offer]
  refine ⟨_, rfl, ?_⟩
  unfold State.offer
  split
  case isTrue => exact h.reject
  case isFalse hfree =>
    rw [Bool.or_eq_true, not_or, Bool.not_eq_true, Bool.not_eq_true] at hfree
    exact accept_inv h hfree.2 i

/-! ### The obligations -/

/-- Settles O42, by the head of the agenda. -/
theorem everyStepKeepsTheInvariant : Obligations.EveryStepKeepsTheInvariant := by
  intro s h
  rcases step_cases s with ⟨-, hstep⟩ | ⟨m, rest, -, hm⟩
  · rw [hstep]
    exact blockMove_inv h
  have htaken := h.taken rest
  rcases hm with ⟨-, hstep⟩ | ⟨-, hstep⟩ | ⟨-, hstep⟩ | ⟨w, i, -, -, hstep⟩ | ⟨w, why, -, -, hstep⟩ |
    ⟨a, -, -, hstep⟩ <;> rw [hstep]
  · exact blockMove_inv htaken
  · exact ⟨_, rfl, waitIdle_inv htaken⟩
  · exact ⟨_, rfl, waitYield_inv htaken⟩
  · exact exec_inv htaken i
  · exact ⟨_, rfl, htaken.reject⟩
  · exact hostAct_inv htaken a

/-- Settles O41. -/
theorem resetStateIsSound : Obligations.ResetStateIsSound :=
  ⟨resetBlock_inv State.reset rfl, List.Pairwise.nil, nofun, nofun⟩

/-- Settles O44. -/
theorem idleBlockHasAnIdleLine : Obligations.IdleBlockHasAnIdleLine :=
  fun _ h hbusy => h.idle hbusy

/-- Each frame of an allowed stack leaves one level of the call order less for the frames above it. -/
theorem length_add_callDepth_le : ∀ {c : List Frame} {f : Frame}, stackOk (f :: c) = true →
    (f :: c).length + callDepth (procOf f) ≤ 5
  | [], f, _ => by cases f <;> simp [procOf, callDepth]
  | g :: c, f, h => by
    simp only [stackOk, Bool.and_eq_true, beq_iff_eq] at h
    obtain ⟨hcall, hstack⟩ := h
    have hdepth := callDepth_lt hcall
    have ih := length_add_callDepth_le hstack
    simp only [List.length_cons] at ih ⊢
    omega

/-- Settles O45; the stack of five frames is that of a bus reset after a failed MEAS. -/
theorem stackHoldsAtMostFiveFrames : Obligations.StackHoldsAtMostFiveFrames := by
  refine ⟨fun c h => ?bound, [.pulse .p1, .start .s1, .connreset .q4, .meas .m8call, .wrapper .x3a], by decide, rfl⟩
  case bound =>
    cases c with
    | nil => simp
    | cons f c => exact (Nat.le_add_right _ _).trans (length_add_callDepth_le h)

end Sys2Proof.Machine
end

section
/-! SUPPORT. What one move can do: the effect of a statement, the label that control reaches, and the registers that only
completions, acceptance, a CFG write and reset change (R10, R24 to R30, R34, R161). -/

namespace Sys2Proof.Machine

variable {s t b : State} {f f' g : Frame} {rest : List Frame}

/-! ### A statement acts, then control goes to a label (R34) -/

/-- The line operations that the statement at a label may record, from the listings: the clock level is written
by P2 only, and the data line sampled by W5, B2b and M3a only. -/
def records : Frame → LineOp → Bool
  | .pulse .p2, .sck _ => true
  | .pulse .p1, .wait _ | .pulse .p3, .wait _ | .meas .m3c, .wait _ => true
  | .wrbyte .w5, .sample _ | .rdbyte .b2b, .sample _ | .meas .m3a, .sample _ => true
  | .wrbyte _, .sda _ | .rdbyte _, .sda _ | .start _, .sda _ | .connreset _, .sda _ => true
  | .release, .sdaDir _ | .wrbyte _, .sdaDir _ | .rdbyte _, .sdaDir _ | .start _, .sdaDir _ => true
  | .connreset _, .sdaDir _ | .connreset _, .sckDir _ => true
  | .meas .m3c, .yield => true
  | _, _ => false

/-- What the statement at `f` does before control moves on: at most one line operation, and working registers. -/
structure State.Effect (f : Frame) (s b : State) : Prop where
  frame : b = { s with
    line := b.line, work := b.work, trace := b.trace,
    world := { s.world with answers := b.world.answers, draws := b.world.draws } }
  clock : s.line.sckOe = .driven → b.line.sckOe = .driven
  wcnt : b.work.wcnt = s.work.wcnt
  event : b.trace = s.trace ∨ ∃ op, records f op = true ∧ b.trace = ⟨s.ticks, op⟩ :: s.trace

/-- Control has gone to a label after `b`: no statement inside PULSE but its first, and no delay begun. -/
def State.follows (t b : State) : Prop :=
  ∃ g c, t = { b with work := t.work, ctl := g :: c } ∧ t.work.wcnt = b.work.wcnt ∧
    ∀ p, g = .pulse p → p = .p1

/-- A label that is no statement of PULSE. -/
def outsidePulse : Frame → Bool
  | .pulse _ => false
  | _ => true

theorem goOn_follows {w : Work} (h : goOn f rest { s with work := w } = .next t)
    (hw : w.wcnt = s.work.wcnt) (hf : outsidePulse f = true) : t.follows s := by
  obtain rfl := goOn_next h
  exact ⟨f, rest, rfl, hw, fun p hp => by rw [hp] at hf; cases hf⟩

theorem loopW2_follows (h : loopW2 rest s = .next t) : t.follows s := by
  unfold loopW2 at h
  split at h <;> exact goOn_follows h rfl rfl

theorem loopB2_follows (h : loopB2 rest s = .next t) : t.follows s := by
  unfold loopB2 at h
  split at h <;> exact goOn_follows h rfl rfl

theorem loopQ3_follows (h : loopQ3 rest s = .next t) : t.follows s := by
  unfold loopQ3 at h
  split at h <;> exact goOn_follows h rfl rfl

theorem loopM3_follows (h : loopM3 rest s = .next t) : t.follows s := by
  unfold loopM3 at h
  split at h <;> exact goOn_follows h rfl rfl

/-- A return goes on in a caller, and PULSE calls nothing. -/
theorem finish_follows {c : List Frame} (h : finish s c = .next t) : t.follows s := by
  induction c with
  | nil => cases h
  | cons f rest ih =>
    cases f with
    | pulse | release => cases h
    | wrbyte w =>
      cases w
      case w1 | w2 | w2a | w5 => cases h
      case w2c => exact loopW2_follows h
      case w6 => exact ih h
      all_goals exact goOn_follows h rfl rfl
    | rdbyte w =>
      cases w
      case b1 | b2 | b2b | b3 | b4 => cases h
      case b2c => exact loopB2_follows h
      case b7 => exact ih h
      all_goals exact goOn_follows h rfl rfl
    | start c =>
      cases c
      case s2dir | s2lev | s4 => cases h
      case s8 => exact ih h
      all_goals exact goOn_follows h rfl rfl
    | connreset c =>
      cases c
      case q1dir | q2dir | q2lev | q3 => cases h
      case q3b => exact loopQ3_follows h
      case q4 => exact ih h
      all_goals exact goOn_follows h rfl rfl
    | meas c =>
      cases c
      case m3 | m3a | m3b | m3c | m3d | m7 | m8ret => cases h
      all_goals exact goOn_follows h rfl rfl
    | rdstat c =>
      cases c
      case t4 => cases h
      all_goals exact goOn_follows h rfl rfl
    | wrstat c =>
      cases c
      case v4 => cases h
      all_goals exact goOn_follows h rfl rfl
    | wrapper x =>
      cases x
      case x1a | x2a | x3a | x4a | x5a | x6a | x7a => exact goOn_follows h rfl rfl
      all_goals cases h

theorem finish_follows_registers {w : Work} {c : List Frame} (h : finish { s with work := w } c = .next t)
    (hw : w.wcnt = s.work.wcnt) : t.follows s := by
  obtain ⟨g, c', ht, htw, hg⟩ := finish_follows h
  exact ⟨g, c', ht, htw.trans hw, hg⟩

/-- What a statement can do that begins no delay, stands outside PULSE and completes no command. -/
def State.acts (f : Frame) (s t : State) : Prop := ∃ b, s.Effect f b ∧ t.follows b

theorem acts_of_goOn (h : goOn f' rest b = .next t) (hf : outsidePulse f' = true) (hb : s.Effect f b) :
    s.acts f t :=
  ⟨b, hb, goOn_follows h rfl hf⟩

/-- A statement that only writes working registers and goes on. -/
theorem acts_of_follows (h : t.follows s) : s.acts f t := ⟨s, ⟨rfl, id, rfl, .inl rfl⟩, h⟩

/-- A statement that calls a procedure. -/
theorem acts_of_call {w : Work} {c : List Frame} (h : (.next { s with work := w, ctl := g :: c } : Result) = .next t)
    (hw : w.wcnt = s.work.wcnt) (hg : outsidePulse g = true) : s.acts f t := by
  cases h
  exact acts_of_follows ⟨g, c, rfl, hw, fun p hp => by rw [hp] at hg; cases hg⟩

theorem acts_of_callPulse {l : Level} (h : (.next (s.callPulse l) : Result) = .next t) : s.acts f t := by
  cases h
  exact acts_of_follows ⟨.pulse .p1, s.ctl, rfl, rfl, fun p hp => (Frame.pulse.inj hp).symm⟩

/-! ### The statements of the listings -/

theorem stmtWrbyte_acts {w : WrbyteAt} (h : stmtWrbyte w rest s = .next t) : s.acts (.wrbyte w) t := by
  cases w with
  | w1 => exact acts_of_goOn h rfl ⟨rfl, id, rfl, .inr ⟨_, rfl, rfl⟩⟩
  | w2 => exact acts_of_follows (goOn_follows h rfl rfl)
  | w2a => exact acts_of_goOn h rfl ⟨rfl, id, rfl, .inr ⟨_, rfl, rfl⟩⟩
  | w2b => exact acts_of_callPulse h
  | w2c => exact acts_of_callPulse h
  | w3 => exact acts_of_call h rfl rfl
  | w4 => exact acts_of_callPulse h
  | w5 => exact acts_of_goOn h rfl ⟨rfl, id, rfl, .inr ⟨_, rfl, rfl⟩⟩
  | w6 => exact acts_of_callPulse h

theorem stmtRdbyte_acts {w : RdbyteAt} (h : stmtRdbyte w rest s = .next t) : s.acts (.rdbyte w) t := by
  cases w with
  | b1 => exact acts_of_follows (goOn_follows h rfl rfl)
  | b2 => exact acts_of_follows (goOn_follows h rfl rfl)
  | b2a => exact acts_of_callPulse h
  | b2b => exact acts_of_goOn h rfl ⟨rfl, id, rfl, .inr ⟨_, rfl, rfl⟩⟩
  | b2c => exact acts_of_callPulse h
  | b3 => exact acts_of_goOn h rfl ⟨rfl, id, rfl, .inr ⟨_, rfl, rfl⟩⟩
  | b4 => exact acts_of_goOn h rfl ⟨rfl, id, rfl, .inr ⟨_, rfl, rfl⟩⟩
  | b5 => exact acts_of_callPulse h
  | b6 => exact acts_of_callPulse h
  | b7 => exact acts_of_call h rfl rfl

theorem stmtStart_acts {c : StartAt} (h : stmtStart c rest s = .next t) : s.acts (.start c) t := by
  cases c with
  | s1 => exact acts_of_callPulse h
  | s2dir => exact acts_of_goOn h rfl ⟨rfl, id, rfl, .inr ⟨_, rfl, rfl⟩⟩
  | s2lev => exact acts_of_goOn h rfl ⟨rfl, id, rfl, .inr ⟨_, rfl, rfl⟩⟩
  | s3 => exact acts_of_callPulse h
  | s4 => exact acts_of_goOn h rfl ⟨rfl, id, rfl, .inr ⟨_, rfl, rfl⟩⟩
  | s5 => exact acts_of_callPulse h
  | s6 => exact acts_of_callPulse h
  | s7 => exact acts_of_call h rfl rfl
  | s8 => exact acts_of_callPulse h

theorem stmtConnreset_acts {c : ConnresetAt} (h : stmtConnreset c rest s = .next t) :
    s.acts (.connreset c) t := by
  cases c with
  | q1dir => exact acts_of_goOn h rfl ⟨rfl, fun _ => rfl, rfl, .inr ⟨_, rfl, rfl⟩⟩
  | q1pulse => exact acts_of_callPulse h
  | q2dir => exact acts_of_goOn h rfl ⟨rfl, id, rfl, .inr ⟨_, rfl, rfl⟩⟩
  | q2lev => exact acts_of_goOn h rfl ⟨rfl, id, rfl, .inr ⟨_, rfl, rfl⟩⟩
  | q3 => exact acts_of_follows (goOn_follows h rfl rfl)
  | q3a => exact acts_of_callPulse h
  | q3b => exact acts_of_callPulse h
  | q4 => exact acts_of_call h rfl rfl

/-- The statements of MEAS but the yield M3c. -/
theorem stmtMeas_acts {c : MeasAt} (hc : c ≠ .m3c) (h : stmtMeas c rest s = .next t) : s.acts (.meas c) t := by
  cases c with
  | m1 => exact acts_of_call h rfl rfl
  | m2 => exact acts_of_call h rfl rfl
  | m3 => exact acts_of_follows (goOn_follows h rfl rfl)
  | m3a => exact acts_of_goOn h rfl ⟨rfl, id, rfl, .inr ⟨_, rfl, rfl⟩⟩
  | m3b =>
    by_cases hs : s.work.s = .low
    · exact acts_of_follows (goOn_follows ((stmtMeas_m3b_ready hs).symm.trans h) rfl rfl)
    · exact acts_of_follows (goOn_follows ((stmtMeas_m3b_notReady hs).symm.trans h) rfl rfl)
  | m3c => exact absurd rfl hc
  | m3d => exact acts_of_follows (goOn_follows h rfl rfl)
  | m4 => exact acts_of_call h rfl rfl
  | m5 => exact acts_of_call h rfl rfl
  | m6 => exact acts_of_call h rfl rfl
  | m7 =>
    by_cases hck : s.work.ck = expected s.crcEn s.work.hi s.work.lo
    · exact acts_of_follows (finish_follows_registers ((stmtMeas_m7_match hck).symm.trans h) rfl)
    · exact acts_of_follows (goOn_follows ((stmtMeas_m7_mismatch hck).symm.trans h) rfl rfl)
  | m8call => exact acts_of_call h rfl rfl
  | m8ret => exact acts_of_follows (finish_follows_registers h rfl)

theorem stmtRdstat_acts {c : RdstatAt} (h : stmtRdstat c rest s = .next t) : s.acts (.rdstat c) t := by
  cases c with
  | t1 => exact acts_of_call h rfl rfl
  | t2 => exact acts_of_call h rfl rfl
  | t3 => exact acts_of_call h rfl rfl
  | t4 => exact acts_of_follows (finish_follows h)

theorem stmtWrstat_acts {c : WrstatAt} (h : stmtWrstat c rest s = .next t) : s.acts (.wrstat c) t := by
  cases c with
  | v1 => exact acts_of_call h rfl rfl
  | v2 => exact acts_of_call h rfl rfl
  | v3 => exact acts_of_call h rfl rfl
  | v4 => exact acts_of_follows (finish_follows_registers h rfl)

theorem stmtRelease_acts (h : stmtRelease rest s = .next t) : s.acts .release t :=
  ⟨s.sdaDir .released, ⟨rfl, id, rfl, .inr ⟨_, rfl, rfl⟩⟩, finish_follows h⟩

/-- The labels at which a wrapper completes its command (R161). -/
def completes : WrapAt → Bool
  | .x1b | .x2b | .x3b | .x4b | .x5b | .x6b | .x7b => true
  | _ => false

theorem stmtWrapper_acts {x : WrapAt} (hx : completes x = false) : s.acts (.wrapper x) (stmtWrapper x s) := by
  cases x
  case x1a | x2a | x3a | x4a | x5a | x6a | x7a => exact acts_of_call rfl rfl rfl
  all_goals cases hx

/-- A statement outside PULSE and but for the yield M3c acts, or completes a command. -/
theorem statement_acts_or_completes (hf : outsidePulse f = true) (hm : f ≠ .meas .m3c)
    (h : statement f rest s = .next t) :
    s.acts f t ∨ ∃ x, f = .wrapper x ∧ completes x = true ∧ t = stmtWrapper x s := by
  cases f with
  | pulse p => cases hf
  | release => exact .inl (stmtRelease_acts h)
  | wrbyte w => exact .inl (stmtWrbyte_acts h)
  | rdbyte w => exact .inl (stmtRdbyte_acts h)
  | start c => exact .inl (stmtStart_acts h)
  | connreset c => exact .inl (stmtConnreset_acts h)
  | meas c => exact .inl (stmtMeas_acts (fun hc => hm (congrArg Frame.meas hc)) h)
  | rdstat c => exact .inl (stmtRdstat_acts h)
  | wrstat c => exact .inl (stmtWrstat_acts h)
  | wrapper x =>
    cases h
    cases hx : completes x with
    | false => exact .inl (stmtWrapper_acts hx)
    | true => exact .inr ⟨x, rfl, hx, rfl⟩

/-! ### Moves that write no register the host reads -/

/-- One event is recorded at the present tick, by the statement at the top label, or one tick passes in a delay
or on an idle block, or neither. -/
def State.passes (s t : State) : Prop :=
  (t.trace = s.trace ∧ t.ticks = s.ticks) ∨
  (t.trace = s.trace ∧ t.ticks = s.ticks + 1 ∧
    (0 < s.work.wcnt ∨ s.stat.yieldReq = true ∨ s.ctl = [])) ∨
  (t.ticks = s.ticks ∧ ∃ f rest op, s.ctl = f :: rest ∧ records f op = true ∧
    t.trace = ⟨s.ticks, op⟩ :: s.trace)

/-- A move that writes none of the registers the host reads, but for ILL and YIELD. -/
structure State.Quiet (s t : State) : Prop where
  temp : t.temp = s.temp
  humi : t.humi = s.humi
  cmd : t.cmd = s.cmd
  crcEn : t.crcEn = s.crcEn
  rdata : t.rdata = s.rdata
  flags : t.stat = { s.stat with ill := t.stat.ill, yieldReq := t.stat.yieldReq }
  clock : s.line.sckOe = .driven → t.line.sckOe = .driven
  passes : s.passes t

theorem State.Quiet.of_taken {moves : List Move} (h : (s.taken moves).Quiet t) : s.Quiet t :=
  ⟨h.temp, h.humi, h.cmd, h.crcEn, h.rdata, h.flags, h.clock, h.passes⟩

/-- Going on after a quiet move is quiet. -/
theorem State.Quiet.reframed (h : s.Quiet b) (ht : t = { b with work := t.work, ctl := t.ctl }) : s.Quiet t := by
  rw [ht]
  exact ⟨h.temp, h.humi, h.cmd, h.crcEn, h.rdata, h.flags, h.clock, h.passes⟩

theorem State.Quiet.movedOn (h : s.Quiet b) (ht : t.movedOn b) : s.Quiet t := by
  obtain ⟨g, c, heq, -⟩ := ht
  refine h.reframed ?_
  have hctl : t.ctl = g :: c := by rw [heq]
  rw [hctl]
  exact heq

theorem State.acts.quiet (hctl : s.ctl = f :: rest) (h : s.acts f t) : s.Quiet t := by
  obtain ⟨b, hb, g, c, heq, -⟩ := h
  have hpasses : s.passes b := by
    have hticks : b.ticks = s.ticks := by rw [hb.frame]
    rcases hb.event with htrace | ⟨op, hop, htrace⟩
    · exact .inl ⟨htrace, hticks⟩
    · exact .inr (.inr ⟨hticks, f, rest, op, hctl, hop, htrace⟩)
  have hquiet : s.Quiet b := by
    refine ⟨?_, ?_, ?_, ?_, ?_, ?_, hb.clock, hpasses⟩ <;> rw [hb.frame]
  refine hquiet.reframed ?_
  have hctl' : t.ctl = g :: c := by rw [heq]
  rw [hctl']
  exact heq

theorem State.Quiet.refl (s : State) : s.Quiet s := ⟨rfl, rfl, rfl, rfl, rfl, rfl, id, .inl ⟨rfl, rfl⟩⟩

/-- A tick passes, in a delay or on an idle block. -/
theorem quiet_tick (h : 0 < s.work.wcnt ∨ s.stat.yieldReq = true ∨ s.ctl = []) {w : Work} :
    s.Quiet { s.tick with work := w } :=
  ⟨rfl, rfl, rfl, rfl, rfl, rfl, id, .inr (.inl ⟨rfl, rfl, h⟩)⟩

theorem startWait_quiet {n : Nat} (hctl : s.ctl = f :: rest) (hf : records f (.wait n) = true)
    (h : startWait n s = .next t) : s.Quiet t := by
  have hrecord : ∀ w : Work, s.Quiet { s.record (.wait n) with work := w } := fun _ =>
    ⟨rfl, rfl, rfl, rfl, rfl, rfl, id, .inr (.inr ⟨rfl, f, rest, .wait n, hctl, hf, rfl⟩)⟩
  rcases startWait_next h with ⟨-, rfl⟩ | ⟨rfl, hmoved⟩
  · exact hrecord _
  · exact (hrecord _).movedOn hmoved

theorem stmtPulse_quiet {p : PulseAt} (hctl : s.ctl = .pulse p :: rest) (h : stmtPulse p rest s = .next t) :
    s.Quiet t := by
  cases p with
  | p1 => exact startWait_quiet (n := Config.setupTicks) hctl rfl h
  | p2 =>
    have hsck : s.Quiet (s.sck s.work.l) :=
      ⟨rfl, rfl, rfl, rfl, rfl, rfl, id, .inr (.inr ⟨rfl, _, rest, _, hctl, rfl, rfl⟩)⟩
    exact hsck.movedOn (goOn_movedOn h)
  | p3 => exact startWait_quiet (n := Config.holdTicks) hctl rfl h

theorem startYield_quiet (hctl : s.ctl = .meas .m3c :: rest)
    (h : startYield (hookOperand s.work.arg) s = .next t) : s.Quiet t := by
  cases hhook : hookOperand s.work.arg with
  | true =>
    rw [hhook] at h
    cases h
    exact ⟨rfl, rfl, rfl, rfl, rfl, rfl, id, .inr (.inr ⟨rfl, _, rest, .yield, hctl, rfl, rfl⟩)⟩
  | false =>
    rw [hhook] at h
    exact startWait_quiet hctl rfl h

/-- A statement is quiet unless it completes a command. -/
theorem statement_quiet_or_completes (hctl : s.ctl = f :: rest) (h : statement f rest s = .next t) :
    s.Quiet t ∨ ∃ x, f = .wrapper x ∧ completes x = true ∧ t = stmtWrapper x s := by
  by_cases hpulse : ∃ p, f = .pulse p
  · obtain ⟨p, rfl⟩ := hpulse
    exact .inl (stmtPulse_quiet hctl h)
  by_cases hm : f = .meas .m3c
  · subst hm
    exact .inl (startYield_quiet hctl h)
  have hf : outsidePulse f = true := by
    cases f with
    | pulse p => exact absurd ⟨p, rfl⟩ hpulse
    | _ => rfl
  exact (statement_acts_or_completes hf hm h).imp (State.acts.quiet hctl) id

/-- The last statement of a wrapper is executed. -/
def State.completesTo (s t : State) : Prop :=
  ∃ x rest moves, s.ctl = .wrapper x :: rest ∧ completes x = true ∧ t = stmtWrapper x (s.taken moves)

theorem State.taken_self (s : State) : s.taken s.world.agenda = s := rfl

theorem endYield_quiet (h : endYield s = .next t) : s.Quiet t := by
  have hcleared : s.Quiet { s with stat := { s.stat with yieldReq := false } } :=
    ⟨rfl, rfl, rfl, rfl, rfl, rfl, id, .inl ⟨rfl, rfl⟩⟩
  exact hcleared.movedOn (endYield_next h)

theorem blockMove_quiet_or_completes (h : blockMove s = .next t) : s.Quiet t ∨ s.completesTo t := by
  rcases blockMove_cases h with ⟨-, rfl⟩ | ⟨-, hyield, -, rfl⟩ | ⟨-, -, -, hend⟩ | ⟨-, -, hw, htick⟩ |
    ⟨-, -, -, hctl, rfl⟩ | ⟨-, -, -, f, rest, hctl, hstmt⟩
  · exact .inl (.refl _)
  · exact .inl (quiet_tick (.inr (.inl hyield)))
  · exact .inl (endYield_quiet hend)
  · rcases waitTick_next htick with rfl | ⟨-, hmoved⟩
    · exact .inl (quiet_tick (.inl hw))
    · exact .inl ((quiet_tick (.inl hw)).movedOn hmoved)
  · exact .inl (quiet_tick (.inr (.inr hctl)))
  · rcases statement_quiet_or_completes hctl hstmt with hquiet | ⟨x, rfl, hx, rfl⟩
    · exact .inl hquiet
    · exact .inr ⟨x, rest, s.world.agenda, hctl, hx, rfl⟩

theorem State.completesTo.of_taken {moves : List Move} (h : (s.taken moves).completesTo t) : s.completesTo t := h

theorem reject_quiet (s : State) : s.Quiet s.reject := by
  unfold State.reject
  split
  · exact .refl s
  · exact ⟨rfl, rfl, rfl, rfl, rfl, rfl, id, .inl ⟨rfl, rfl⟩⟩

/-- A change of the read log, the agenda or the pins is quiet. -/
theorem quiet_of_world (s : State) (w : World) (p : Pins) : s.Quiet { s with world := w, pins := p } :=
  ⟨rfl, rfl, rfl, rfl, rfl, rfl, id, .inl ⟨rfl, rfl⟩⟩

theorem waitIdle_quiet (s : State) : s.Quiet (waitIdle s) := by
  rw [waitIdle_eq]
  exact quiet_of_world s _ _

theorem waitYield_quiet (s : State) : s.Quiet (waitYield s) := by
  rcases waitYield_cases s with ⟨-, heq⟩ | ⟨-, -, heq⟩ <;> rw [heq]
  · exact .refl s
  · exact quiet_of_world s _ _

/-- A legal command word is written to an idle block, and accepted. -/
def State.acceptsTo (s t : State) : Prop :=
  ∃ i x moves, s.world.agenda.head? = some (.host (.write 0 (encode i))) ∧ s.stat.busy = false ∧
    t = (s.taken moves).accept i x

/-- CFG is written on an idle block. -/
def State.configuresTo (s t : State) : Prop :=
  ∃ v moves, s.world.agenda.head? = some (.host (.write 2 v)) ∧ s.stat.busy = false ∧
    t = { s.taken moves with crcEn := v.getLsbD 0 }

/-- `rst` is driven to 1. -/
def State.resetsTo (s t : State) : Prop :=
  ∃ moves, s.world.agenda.head? = some (.host (.driveRst true)) ∧ t = (s.taken moves).assertRst

theorem hostWrite_quiet_or_configures {a : Addr} {v : Word} {moves : List Move}
    (hag : s.world.agenda.head? = some (.host (.write a v))) :
    s.Quiet ((s.taken moves).hostWrite a v) ∨ s.configuresTo ((s.taken moves).hostWrite a v) := by
  unfold State.hostWrite
  split
  case isTrue hw =>
    obtain ⟨ha, hbusy, -⟩ := hw
    obtain rfl : a = 2 := BitVec.eq_of_toNat_eq ha
    exact .inr ⟨v, moves, hag, hbusy, rfl⟩
  case isFalse => exact .inl (quiet_of_world s _ _)

/-- What a step can do: a quiet move, a completion, an acceptance, a CFG write on an idle block, or the start of
a reset. -/
theorem step_changes (h : step s = .next t) :
    s.Quiet t ∨ s.completesTo t ∨ s.acceptsTo t ∨ s.configuresTo t ∨ s.resetsTo t := by
  rcases step_cases s with ⟨-, hstep⟩ | ⟨m, moves, hag, hm⟩
  · rw [hstep] at h
    exact (blockMove_quiet_or_completes h).imp id .inl
  have hhead : s.world.agenda.head? = some m := by rw [hag]; rfl
  rcases hm with ⟨-, hstep⟩ | ⟨-, hstep⟩ | ⟨-, hstep⟩ | ⟨w, i, rfl, hd, hstep⟩ | ⟨w, why, -, -, hstep⟩ |
    ⟨a, rfl, -, hstep⟩ <;> rw [hstep] at h
  · exact (blockMove_quiet_or_completes h).imp .of_taken fun hc => .inl hc.of_taken
  · cases h; exact .inl (waitIdle_quiet _).of_taken
  · cases h; exact .inl (waitYield_quiet _).of_taken
  · obtain ⟨x, hx⟩ := exec_is_an_offer i (s.taken moves)
    rw [hx] at h
    cases h
    rcases offer_cases i x (s.taken moves) with ⟨-, heq⟩ | ⟨-, -, heq⟩ | ⟨-, hbusy, heq⟩ <;> rw [heq]
    · exact .inl (quiet_of_world s _ _)
    · exact .inl ⟨rfl, rfl, rfl, rfl, rfl, rfl, id, .inl ⟨rfl, rfl⟩⟩
    · exact .inr (.inr (.inl ⟨i, x, moves, by rw [hhead, encode_of_decode hd], hbusy, rfl⟩))
  · cases h; exact .inl (reject_quiet _).of_taken
  · cases a with
    | read addr => cases h; exact .inl (quiet_of_world s _ _)
    | write addr v =>
      cases h
      exact (hostWrite_quiet_or_configures hhead).imp id fun hc => .inr (.inr (.inl hc))
    | hookReturn =>
      cases hyield : s.stat.yieldReq with
      | false =>
        rw [hookReturnOutsideAYieldIsIgnored (s.taken moves) hyield] at h
        cases h
        exact .inl (quiet_of_world s _ _)
      | true =>
        have hend : endYield (s.taken moves) = .next t := (if_pos hyield).symm.trans h
        exact .inl (endYield_quiet hend).of_taken
    | driveAck l => cases h; exact .inl (quiet_of_world s _ _)
    | driveRst l =>
      cases l with
      | false => cases h; exact .inl (quiet_of_world s _ _)
      | true => cases h; exact .inr (.inr (.inr (.inr ⟨moves, hhead, rfl⟩)))

end Sys2Proof.Machine
end

section
/-! PROOFS. Whole-machine rules: the event or the tick of a step, the data line at a sample, and which move may change each
register (R24, R26, R27, R29, R30, R38, R72). -/

namespace Sys2Proof.Machine

variable {s t : State}

/-! ### Completions (R161) -/

theorem completeMeas_success {raw : Raw} (hres : s.work.res = .success raw) :
    completeMeas s = (s.commitRaw (selOperand s.work.arg) raw).done false .none := by
  simp only [completeMeas, hres]

theorem completeMeas_failure {c : Cause} (hres : s.work.res = .failure c) : completeMeas s = s.done true c := by
  simp only [completeMeas, hres]

/-- What a completion can do: the result only, the byte read with it, or the raw value of a successful MEAS. -/
theorem completion_cases {x : WrapAt} (hx : completes x = true) (s : State) :
    (∃ err c, stmtWrapper x s = s.done err c) ∨
    ((x = .x4b ∨ x = .x7b) ∧ ∃ err c, stmtWrapper x s = (s.setRdata s.work.r).done err c) ∨
    (x = .x3b ∧ ∃ raw, s.work.res = .success raw ∧
      stmtWrapper x s = (s.commitRaw (selOperand s.work.arg) raw).done false .none) := by
  cases x
  case x1b | x2b | x5b | x6b => exact .inl ⟨_, _, rfl⟩
  case x4b => exact .inr (.inl ⟨.inl rfl, _, _, rfl⟩)
  case x7b => exact .inr (.inl ⟨.inr rfl, _, _, rfl⟩)
  case x3b =>
    cases hres : s.work.res with
    | success raw => exact .inr (.inr ⟨rfl, raw, rfl, completeMeas_success hres⟩)
    | failure c => exact .inl ⟨true, c, completeMeas_failure hres⟩
  all_goals cases hx

/-- What every completion does: the stack is empty, BUSY is 0, and neither line, CMD, CFG, trace nor time
change; no VALID flag is cleared. -/
structure State.Completed (s t : State) : Prop where
  ctl : t.ctl = []
  busy : t.stat.busy = false
  cmd : t.cmd = s.cmd
  crcEn : t.crcEn = s.crcEn
  line : t.line = s.line
  trace : t.trace = s.trace
  ticks : t.ticks = s.ticks
  tvalid : s.stat.tvalid = true → t.stat.tvalid = true
  hvalid : s.stat.hvalid = true → t.stat.hvalid = true

theorem stmtWrapper_completed {x : WrapAt} (hx : completes x = true) (s : State) :
    s.Completed (stmtWrapper x s) := by
  rcases completion_cases hx s with ⟨err, c, heq⟩ | ⟨-, err, c, heq⟩ | ⟨-, raw, -, heq⟩ <;> rw [heq]
  · exact ⟨rfl, rfl, rfl, rfl, rfl, rfl, rfl, id, id⟩
  · exact ⟨rfl, rfl, rfl, rfl, rfl, rfl, rfl, id, id⟩
  · cases selOperand s.work.arg
    · exact ⟨rfl, rfl, rfl, rfl, rfl, rfl, rfl, fun _ => rfl, id⟩
    · exact ⟨rfl, rfl, rfl, rfl, rfl, rfl, rfl, id, fun _ => rfl⟩

theorem State.completesTo.completed (h : s.completesTo t) : s.Completed t := by
  obtain ⟨x, rest, moves, -, hx, rfl⟩ := h
  have hc := stmtWrapper_completed hx (s.taken moves)
  exact ⟨hc.ctl, hc.busy, hc.cmd, hc.crcEn, hc.line, hc.trace, hc.ticks, hc.tvalid, hc.hvalid⟩

/-! ### The event or the tick of a step (R72) -/

/-- Settles O47: a quiet move passes in one of three ways, a reset starts again, and every other move
records nothing. -/
theorem stepRecordsAtMostOneEventOrLetsOneTickPass :
    Obligations.StepRecordsAtMostOneEventOrLetsOneTickPass := by
  intro s t h
  rcases step_changes h with hq | hc | ⟨i, x, moves, -, -, rfl⟩ | ⟨v, moves, -, -, rfl⟩ | ⟨moves, hhead, rfl⟩
  · rcases hq.passes with hnone | htick | ⟨hticks, f, rest, op, -, -, htrace⟩
    · exact .inl hnone
    · exact .inr (.inl htick)
    · exact .inr (.inr (.inl ⟨hticks, op, htrace⟩))
  · exact .inl ⟨hc.completed.trace, hc.completed.ticks⟩
  · exact .inl ⟨rfl, rfl⟩
  · exact .inl ⟨rfl, rfl⟩
  · exact .inr (.inr (.inr ⟨hhead, rfl, rfl⟩))

/-- The labels that sample are reached with the data line released, and stand outside PULSE. -/
theorem dirAt_of_records_sample {f : Frame} {b : Level} (h : records f (.sample b) = true) :
    plainLine f = true ∧ dirAt f = some .released := by
  cases f with
  | pulse p => cases p <;> cases h
  | wrbyte w =>
    cases w
    case w5 => exact ⟨rfl, rfl⟩
    all_goals cases h
  | rdbyte w =>
    cases w
    case b2b => exact ⟨rfl, rfl⟩
    all_goals cases h
  | meas c => exact ⟨rfl, rfl⟩
  | _ => cases h

/-- Settles O46: a sample is recorded by a label at which the line invariant has the data line released. -/
theorem sampleOnlyWhileReleased : Obligations.SampleOnlyWhileReleased := by
  intro s t b hinv h htrace
  have hne : t.trace ≠ s.trace := by rw [htrace]; exact List.cons_ne_self _ _
  rcases step_changes h with hq | hc | ⟨i, x, moves, -, -, rfl⟩ | ⟨v, moves, -, -, rfl⟩ | ⟨moves, -, rfl⟩
  · rcases hq.passes with ⟨hnone, -⟩ | ⟨hnone, -⟩ | ⟨-, f, rest, op, hctl, hop, hevent⟩
    · exact absurd hnone hne
    · exact absurd hnone hne
    · rw [htrace] at hevent
      obtain rfl : LineOp.sample b = op := congrArg LineEvent.op (List.cons.inj hevent).1
      obtain ⟨hplain, hdir⟩ := dirAt_of_records_sample hop
      obtain ⟨-, hline, -⟩ := lineAt_of_lineOk hplain ((State.goto_of_ctl hctl).symm ▸ hinv.line)
      rw [State.dirOk, hdir] at hline
      exact hline
  · exact absurd hc.completed.trace hne
  · exact absurd rfl hne
  · exact absurd rfl hne
  · cases htrace

/-! ### Which move may change a register -/

theorem selOperand_temp_iff {arg : Byte} : selOperand arg = .temp ↔ arg.getLsbD 0 = false := by
  rw [selOperand]
  cases arg.getLsbD 0 <;> simp [selOfBit]

theorem selOperand_humi_iff {arg : Byte} : selOperand arg = .humi ↔ arg.getLsbD 0 = true := by
  rw [selOperand]
  cases arg.getLsbD 0 <;> simp [selOfBit]

/-- Settles O48: of the completions only that of a successful MEAS writes a raw register, the selected one. -/
theorem rawRegistersChangeOnlyOnSuccess : Obligations.RawRegistersChangeOnlyOnSuccess := by
  intro s t h hchange
  have hsame : ¬ (t.temp = s.temp ∧ t.humi = s.humi) := fun ⟨ht, hh⟩ => hchange.elim (· ht) (· hh)
  rcases step_changes h with hq | ⟨x, rest, moves, hctl, hx, rfl⟩ | ⟨i, x, moves, -, -, rfl⟩ |
    ⟨v, moves, -, -, rfl⟩ | ⟨moves, hhead, rfl⟩
  · exact absurd ⟨hq.temp, hq.humi⟩ hsame
  · rcases completion_cases hx (s.taken moves) with ⟨err, c, heq⟩ | ⟨-, err, c, heq⟩ | ⟨rfl, raw, hres, heq⟩ <;>
      rw [heq] at hsame ⊢
    · exact absurd ⟨rfl, rfl⟩ hsame
    · exact absurd ⟨rfl, rfl⟩ hsame
    · refine .inl ⟨rest, raw, hctl, hres, rfl, rfl, rfl, ?_⟩
      cases hsel : selOperand (s.taken moves).work.arg with
      | temp => exact .inl ⟨selOperand_temp_iff.mp hsel, rfl, rfl, rfl⟩
      | humi => exact .inr ⟨selOperand_humi_iff.mp hsel, rfl, rfl, rfl⟩
  · exact absurd ⟨rfl, rfl⟩ hsame
  · exact absurd ⟨rfl, rfl⟩ hsame
  · exact .inr ⟨hhead, rfl, rfl⟩

theorem commitRaw_rdata (sel : Sel) (raw : Raw) (s : State) : (s.commitRaw sel raw).rdata = s.rdata := by
  cases sel <;> rfl

/-- Settles O49: of the completions only those of RDSTAT and RDBYTE write RDATA. -/
theorem rdataChangesOnlyWhenAByteWasRead : Obligations.RdataChangesOnlyWhenAByteWasRead := by
  intro s t h hchange
  rcases step_changes h with hq | ⟨x, rest, moves, hctl, hx, rfl⟩ | ⟨i, x, moves, -, -, rfl⟩ |
    ⟨v, moves, -, -, rfl⟩ | ⟨moves, hhead, rfl⟩
  · exact absurd hq.rdata hchange
  · rcases completion_cases hx (s.taken moves) with ⟨err, c, heq⟩ | ⟨hread, err, c, heq⟩ | ⟨-, raw, -, heq⟩ <;>
      rw [heq] at hchange ⊢
    · exact absurd rfl hchange
    · exact .inl ⟨rest, hread.imp (by rintro rfl; exact hctl) (by rintro rfl; exact hctl), rfl, rfl⟩
    · exact absurd (commitRaw_rdata _ raw (s.taken moves)) hchange
  · exact absurd rfl hchange
  · exact absurd rfl hchange
  · exact .inr ⟨hhead, rfl⟩

/-- Settles O50: of the moves that `step_changes` lists, a CFG write on an idle block and reset write CRC_EN. -/
theorem crcEnChangesOnlyByAnIdleCfgWrite : Obligations.CrcEnChangesOnlyByAnIdleCfgWrite := by
  intro s t h hchange
  rcases step_changes h with hq | hc | ⟨i, x, moves, -, -, rfl⟩ | ⟨v, moves, hhead, hbusy, rfl⟩ |
    ⟨moves, hhead, rfl⟩
  · exact absurd hq.crcEn hchange
  · exact absurd hc.completed.crcEn hchange
  · exact absurd rfl hchange
  · exact .inl ⟨v, hhead, hbusy, rfl⟩
  · exact .inr ⟨hhead, rfl⟩

/-- Settles O51: a quiet move, an acceptance and a CFG write keep ERR and CAUSE and do not clear BUSY. -/
theorem resultFlagsChangeOnlyAtCompletion : Obligations.ResultFlagsChangeOnlyAtCompletion := by
  intro s t h hnoreset
  rcases step_changes h with hq | hc | ⟨i, x, moves, -, -, rfl⟩ | ⟨v, moves, -, -, rfl⟩ | ⟨moves, hhead, rfl⟩
  · rw [hq.flags]
    refine ⟨fun hchange => ?_, id, id⟩
    rcases hchange with ⟨hbusy, hidle⟩ | herr | hcause
    · exact absurd (hbusy.symm.trans hidle) Bool.false_ne_true.symm
    · exact absurd rfl herr
    · exact absurd rfl hcause
  · obtain ⟨x, rest, moves, hctl, -, -⟩ := id hc
    have hdone := hc.completed
    exact ⟨fun _ => ⟨hdone.ctl, hdone.busy, x, rest, hctl⟩, hdone.tvalid, hdone.hvalid⟩
  · refine ⟨fun hchange => ?_, id, id⟩
    rcases hchange with ⟨-, hidle⟩ | herr | hcause
    · cases hidle
    · exact absurd rfl herr
    · exact absurd rfl hcause
  · refine ⟨fun hchange => ?_, id, id⟩
    rcases hchange with ⟨hbusy, hidle⟩ | herr | hcause
    · exact absurd (hbusy.symm.trans hidle) Bool.false_ne_true.symm
    · exact absurd rfl herr
    · exact absurd rfl hcause
  · exact absurd hhead hnoreset

/-- Settles O52: of the moves that `step_changes` lists, an acceptance and reset write CMD. -/
theorem cmdChangesOnlyAtAcceptance : Obligations.CmdChangesOnlyAtAcceptance := by
  intro s t h hchange
  rcases step_changes h with hq | hc | ⟨i, x, moves, hhead, hbusy, rfl⟩ | ⟨v, moves, -, -, rfl⟩ |
    ⟨moves, hhead, rfl⟩
  · exact absurd hq.cmd hchange
  · exact absurd hc.completed.cmd hchange
  · exact .inl ⟨encode i, hhead, hbusy, exists_command_iff_legal.mp ⟨i, decode_encode i⟩, rfl, rfl, rfl⟩
  · exact absurd rfl hchange
  · exact .inr ⟨hhead, rfl⟩

/-- Settles O53: only reset makes the clock pin an input. -/
theorem clockStaysDrivenUntilReset : Obligations.ClockStaysDrivenUntilReset := by
  intro s t h hdriven hnoreset
  rcases step_changes h with hq | hc | ⟨i, x, moves, -, -, rfl⟩ | ⟨v, moves, -, -, rfl⟩ | ⟨moves, hhead, rfl⟩
  · exact hq.clock hdriven
  · rw [hc.completed.line]
    exact hdriven
  · exact hdriven
  · exact hdriven
  · exact absurd hhead hnoreset

end Sys2Proof.Machine
end

section
/-! PROOFS. The timing contract of the lines: how old the last clock and data events are at each position, and that every
step keeps the spacing (R129, R260). -/

namespace Sys2Proof.Machine

variable {s t b : State} {f g : Frame} {rest : List Frame}

/-! ### Ages of the events of a trace -/

/-- Every event of one kind is at least `m` ticks old; `clockAge` and `dataAge` are of this form. -/
def State.aged (p : LineEvent → Bool) (s : State) (m : Nat) : Prop :=
  ∀ e ∈ s.trace, p e = true → e.tick + m ≤ s.ticks

theorem State.clockAge_eq (s : State) (m : Nat) : s.clockAge m = s.aged onClock m := rfl

theorem State.dataAge_eq (s : State) (m : Nat) : s.dataAge m = s.aged onData m := rfl

/-- After `k` more ticks without an event, the events are `k` ticks older. -/
theorem State.aged.later {p : LineEvent → Bool} {m m' : Nat} (h : s.aged p m) (k : Nat)
    (htrace : t.trace = s.trace) (hticks : t.ticks = s.ticks + k) (hm : m' ≤ m + k) : t.aged p m' := by
  intro e he hp
  have hage := h e (htrace ▸ he) hp
  omega

/-- An event of another kind keeps the age, and one of this kind starts it again. -/
theorem State.aged.record {p : LineEvent → Bool} {m : Nat} {op : LineOp} (h : s.aged p m)
    (htrace : b.trace = ⟨s.ticks, op⟩ :: s.trace) (hticks : b.ticks = s.ticks)
    (hop : p ⟨s.ticks, op⟩ = false ∨ m = 0) : b.aged p m := by
  intro e he hp
  rw [htrace] at he
  rcases List.mem_cons.mp he with rfl | he
  · rcases hop with hop | rfl
    · rw [hop] at hp; cases hp
    · exact hticks.ge
  · exact (h e he hp).trans hticks.ge

/-- A new event keeps the spacing if the earlier events of the other kind are old enough. -/
theorem State.spaced.record {op : LineOp} (h : s.spaced) (htrace : b.trace = ⟨s.ticks, op⟩ :: s.trace)
    (hclock : onClock ⟨s.ticks, op⟩ = true → s.dataAge Config.setupTicks)
    (hdata : onData ⟨s.ticks, op⟩ = true → s.clockAge Config.holdTicks) : b.spaced := by
  rw [State.spaced, htrace]
  exact List.pairwise_cons.mpr ⟨fun e he => ⟨fun hc ho => hclock hc e he ho, fun hd ho => hdata hd e he ho⟩, h⟩

theorem State.spaced.of_trace (h : s.spaced) (htrace : t.trace = s.trace) : t.spaced := by
  rw [State.spaced, htrace]
  exact h

/-! ### Outside PULSE the line has rested -/

/-- The age that every position outside PULSE has: the last clock write has been held. -/
def State.rested (s : State) : Prop := s.clockAge Config.holdTicks ∧ s.dataAge 0

theorem ageOk_p1_iff (hctl : s.ctl = .pulse .p1 :: rest) : s.ageOk ↔
    s.clockAge Config.holdTicks ∧ s.dataAge 0 ∧
      (0 < s.work.wcnt → s.dataAge (Config.setupTicks - s.work.wcnt)) := by
  rw [State.ageOk, hctl]

theorem ageOk_p2_iff (hctl : s.ctl = .pulse .p2 :: rest) :
    s.ageOk ↔ s.clockAge Config.holdTicks ∧ s.dataAge Config.setupTicks := by
  rw [State.ageOk, hctl]

theorem ageOk_p3_iff (hctl : s.ctl = .pulse .p3 :: rest) : s.ageOk ↔
    s.clockAge 0 ∧ s.dataAge 0 ∧ (0 < s.work.wcnt → s.clockAge (Config.holdTicks - s.work.wcnt)) := by
  rw [State.ageOk, hctl]

theorem ageOk_outside_iff (hctl : s.ctl = f :: rest) (hf : outsidePulse f = true) : s.ageOk ↔ s.rested := by
  rw [State.ageOk, hctl]
  cases f with
  | pulse p => cases hf
  | _ => rfl

theorem ageOk_empty_iff (hctl : s.ctl = []) : s.ageOk ↔ s.rested := by
  rw [State.ageOk, hctl]
  rfl

theorem State.rested.later (h : s.rested) (k : Nat) (htrace : t.trace = s.trace)
    (hticks : t.ticks = s.ticks + k) : t.rested :=
  ⟨State.aged.later h.1 k htrace hticks (Nat.le_add_right _ _), State.aged.later h.2 k htrace hticks (Nat.zero_le _)⟩

/-- An event that is no clock write leaves the line rested. -/
theorem State.rested.record {op : LineOp} (h : s.rested) (htrace : b.trace = ⟨s.ticks, op⟩ :: s.trace)
    (hticks : b.ticks = s.ticks) (hop : onClock ⟨s.ticks, op⟩ = false) : b.rested :=
  ⟨State.aged.record h.1 htrace hticks (.inl hop), State.aged.record h.2 htrace hticks (.inr rfl)⟩

/-- The spacing of the trace and the age of its last events. -/
def State.timed (s : State) : Prop := s.spaced ∧ s.ageOk

theorem exists_pulse_of_not_outside (hf : outsidePulse f = false) : ∃ p, f = .pulse p := by
  cases f with
  | pulse p => exact ⟨p, rfl⟩
  | _ => cases hf

/-- Control has gone to a label from a rested state in which no delay runs. -/
theorem timed_of_follows (hspaced : b.spaced) (hrested : b.rested) (hwcnt : b.work.wcnt = 0)
    (h : t.follows b) : t.timed := by
  obtain ⟨g, c, ht, htw, hg⟩ := h
  have htrace : t.trace = b.trace := by rw [ht]
  have hticks : t.ticks = b.ticks := by rw [ht]
  have hctl : t.ctl = g :: c := by rw [ht]
  have hrested' := hrested.later 0 htrace hticks
  refine ⟨hspaced.of_trace htrace, ?_⟩
  cases hf : outsidePulse g with
  | true => exact (ageOk_outside_iff hctl hf).mpr hrested'
  | false =>
    obtain ⟨p, rfl⟩ := exists_pulse_of_not_outside hf
    obtain rfl := hg p rfl
    exact (ageOk_p1_iff hctl).mpr ⟨hrested'.1, hrested'.2, fun hw => absurd (htw.trans hwcnt) hw.ne'⟩

/-- The position, and with it the age it asks for, stays while ticks pass. -/
theorem State.timed.later (h : s.timed) (k : Nat) (htrace : t.trace = s.trace) (hticks : t.ticks = s.ticks + k)
    (hctl : t.ctl = s.ctl) (hwcnt : t.work.wcnt = s.work.wcnt) : t.timed := by
  obtain ⟨hspaced, hage⟩ := h
  refine ⟨hspaced.of_trace htrace, ?_⟩
  have hclock : ∀ m, s.clockAge m → t.clockAge m := fun m h =>
    State.aged.later h k htrace hticks (Nat.le_add_right m k)
  have hdata : ∀ m, s.dataAge m → t.dataAge m := fun m h =>
    State.aged.later h k htrace hticks (Nat.le_add_right m k)
  rcases hc : s.ctl with _ | ⟨f, c⟩ <;> rw [hc] at hctl
  · exact (ageOk_empty_iff hctl).mpr (((ageOk_empty_iff hc).mp hage).later k htrace hticks)
  cases hf : outsidePulse f with
  | true => exact (ageOk_outside_iff hctl hf).mpr (((ageOk_outside_iff hc hf).mp hage).later k htrace hticks)
  | false =>
    obtain ⟨p, rfl⟩ := exists_pulse_of_not_outside hf
    cases p with
    | p1 =>
      obtain ⟨hc5, hd0, hwait⟩ := (ageOk_p1_iff hc).mp hage
      exact (ageOk_p1_iff hctl).mpr ⟨hclock _ hc5, hdata _ hd0, by rw [hwcnt]; exact fun hw => hdata _ (hwait hw)⟩
    | p2 =>
      obtain ⟨hc5, hd2⟩ := (ageOk_p2_iff hc).mp hage
      exact (ageOk_p2_iff hctl).mpr ⟨hclock _ hc5, hdata _ hd2⟩
    | p3 =>
      obtain ⟨hc0, hd0, hwait⟩ := (ageOk_p3_iff hc).mp hage
      exact (ageOk_p3_iff hctl).mpr ⟨hclock _ hc0, hdata _ hd0, by rw [hwcnt]; exact fun hw => hclock _ (hwait hw)⟩

/-! ### Statements -/

/-- Outside PULSE a statement writes no clock level. -/
theorem onClock_of_records {op : LineOp} (hf : outsidePulse f = true) (h : records f op = true) (n : Nat) :
    onClock ⟨n, op⟩ = false := by
  cases op with
  | sck l =>
    cases f with
    | pulse p => cases hf
    | wrbyte w => cases w <;> cases h
    | rdbyte w => cases w <;> cases h
    | meas c => cases c <;> cases h
    | _ => cases h
  | _ => rfl

theorem timed_of_acts (hspaced : s.spaced) (hrested : s.rested) (hwcnt : s.work.wcnt = 0)
    (hf : outsidePulse f = true) (h : s.acts f t) : t.timed := by
  obtain ⟨b, hb, hfollows⟩ := h
  have hticks : b.ticks = s.ticks := by rw [hb.frame]
  rcases hb.event with htrace | ⟨op, hop, htrace⟩
  · exact timed_of_follows (hspaced.of_trace htrace) (hrested.later 0 htrace hticks) (hb.wcnt.trans hwcnt) hfollows
  · have hclock := onClock_of_records hf hop s.ticks
    have hspaced' : b.spaced := hspaced.record htrace (fun hc => by rw [hclock] at hc; cases hc) (fun _ => hrested.1)
    exact timed_of_follows hspaced' (hrested.record htrace hticks hclock) (hb.wcnt.trans hwcnt) hfollows

/-- A WAIT or a YIELD is neither a clock write nor a data event. -/
theorem State.spaced.record_delay {op : LineOp} (h : s.spaced) (htrace : b.trace = ⟨s.ticks, op⟩ :: s.trace)
    (hclock : onClock ⟨s.ticks, op⟩ = false) (hdata : onData ⟨s.ticks, op⟩ = false) : b.spaced :=
  h.record htrace (fun hc => by rw [hclock] at hc; cases hc) (fun hd => by rw [hdata] at hd; cases hd)

theorem startWait_setup_timed (h : s.timed) (hctl : s.ctl = .pulse .p1 :: rest)
    (hstart : startWait Config.setupTicks s = .next t) : t.timed := by
  rcases startWait_next hstart with ⟨-, rfl⟩ | ⟨hn, -⟩
  · obtain ⟨hspaced, hage⟩ := h
    obtain ⟨hclock, hdata, -⟩ := (ageOk_p1_iff hctl).mp hage
    let b : State := { s.record (.wait Config.setupTicks) with work := { s.work with wcnt := Config.setupTicks } }
    have hdata' : b.dataAge 0 := State.aged.record (s := s) (b := b) hdata rfl rfl (.inl rfl)
    have hclock' : b.clockAge Config.holdTicks := State.aged.record (s := s) (b := b) hclock rfl rfl (.inl rfl)
    exact ⟨hspaced.record_delay rfl rfl rfl, (ageOk_p1_iff (s := b) hctl).mpr ⟨hclock', hdata', fun _ => hdata'⟩⟩
  · cases hn

theorem startWait_hold_timed (h : s.timed) (hctl : s.ctl = .pulse .p3 :: rest)
    (hstart : startWait Config.holdTicks s = .next t) : t.timed := by
  rcases startWait_next hstart with ⟨-, rfl⟩ | ⟨hn, -⟩
  · obtain ⟨hspaced, hage⟩ := h
    obtain ⟨hclock, hdata, -⟩ := (ageOk_p3_iff hctl).mp hage
    let b : State := { s.record (.wait Config.holdTicks) with work := { s.work with wcnt := Config.holdTicks } }
    have hclock' : b.clockAge 0 := State.aged.record (s := s) (b := b) hclock rfl rfl (.inl rfl)
    have hdata' : b.dataAge 0 := State.aged.record (s := s) (b := b) hdata rfl rfl (.inl rfl)
    exact ⟨hspaced.record_delay rfl rfl rfl, (ageOk_p3_iff (s := b) hctl).mpr ⟨hclock', hdata', fun _ => hclock'⟩⟩
  · cases hn

/-- P2 writes the clock after the data line has been still for the setup time, and starts the hold time. -/
theorem sck_timed (h : s.timed) (hwcnt : s.work.wcnt = 0) (hctl : s.ctl = .pulse .p2 :: rest) (l : Level) :
    ((s.sck l).goto (.pulse .p3) rest).timed := by
  obtain ⟨hspaced, hage⟩ := h
  obtain ⟨hclock, hdata⟩ := (ageOk_p2_iff hctl).mp hage
  have hclock0 : s.clockAge 0 := State.aged.later hclock 0 rfl rfl (Nat.zero_le _)
  have hdata0 : s.dataAge 0 := State.aged.later hdata 0 rfl rfl (Nat.zero_le _)
  exact ⟨hspaced.record rfl (fun _ => hdata) nofun, (ageOk_p3_iff rfl).mpr
    ⟨State.aged.record hclock0 rfl rfl (.inr rfl), State.aged.record hdata0 rfl rfl (.inl rfl),
      fun hw => absurd hwcnt hw.ne'⟩⟩

/-- The end of a delay at M3c is the end of the loop body. -/
theorem leaveDelay_at_m3c (hctl : s.ctl = .meas .m3c :: rest) : leaveDelay s = loopM3 rest s := by
  simp only [leaveDelay, hctl]

theorem startYield_timed (h : s.timed) (hctl : s.ctl = .meas .m3c :: rest)
    (hstart : startYield (hookOperand s.work.arg) s = .next t) : t.timed := by
  obtain ⟨hspaced, hage⟩ := h
  have hrested := (ageOk_outside_iff hctl rfl).mp hage
  cases hhook : hookOperand s.work.arg <;> rw [hhook] at hstart
  case true =>
    cases hstart
    let b : State := { s.record .yield with stat := { s.stat with yieldReq := true } }
    have hb : b.rested := State.rested.record (s := s) (b := b) hrested rfl rfl rfl
    exact ⟨hspaced.record_delay rfl rfl rfl, (ageOk_outside_iff (s := b) hctl rfl).mpr hb⟩
  case false =>
    let b : State := { s.record (.wait Config.pollWaitTicks) with work := { s.work with wcnt := Config.pollWaitTicks } }
    have hb : b.spaced := hspaced.record_delay rfl rfl rfl
    have hbr : b.rested := State.rested.record (s := s) (b := b) hrested rfl rfl rfl
    change (if Config.pollWaitTicks = 0 then leaveDelay b else .next b) = .next t at hstart
    split at hstart
    case isTrue hn =>
      exact timed_of_follows hb hbr hn (loopM3_follows ((leaveDelay_at_m3c (s := b) hctl).symm.trans hstart))
    case isFalse =>
      rw [← Host.Outcome.next.inj hstart]
      exact ⟨hb, (ageOk_outside_iff (s := b) hctl rfl).mpr hbr⟩

theorem statement_timed (h : s.timed) (hwcnt : s.work.wcnt = 0) (hctl : s.ctl = f :: rest)
    (hstmt : statement f rest s = .next t) : t.timed := by
  cases hf : outsidePulse f with
  | false =>
    obtain ⟨p, rfl⟩ := exists_pulse_of_not_outside hf
    cases p with
    | p1 => exact startWait_setup_timed h hctl hstmt
    | p2 => cases hstmt; exact sck_timed h hwcnt hctl _
    | p3 => exact startWait_hold_timed h hctl hstmt
  | true =>
    by_cases hm : f = .meas .m3c
    · subst hm
      exact startYield_timed h hctl hstmt
    obtain ⟨hspaced, hage⟩ := h
    have hrested := (ageOk_outside_iff hctl hf).mp hage
    rcases statement_acts_or_completes hf hm hstmt with hacts | ⟨x, -, hx, rfl⟩
    · exact timed_of_acts hspaced hrested hwcnt hf hacts
    · have hdone := stmtWrapper_completed hx s
      exact ⟨hspaced.of_trace hdone.trace,
        (ageOk_empty_iff hdone.ctl).mpr (hrested.later 0 hdone.trace hdone.ticks)⟩

/-! ### Delays (R121, R127, R168) -/

/-- One tick of a WAIT. -/
def State.waited (s : State) : State := { s.tick with work := { s.work with wcnt := s.work.wcnt - 1 } }

/-- The last tick of a WAIT, and those before it. -/
theorem waitTick_eq (s : State) :
    waitTick s = if s.work.wcnt - 1 = 0 then leaveDelay s.waited else .next s.waited := rfl

theorem waitTick_setup_timed (h : s.timed) (hw : 0 < s.work.wcnt) (hle : s.work.wcnt ≤ Config.setupTicks)
    (hctl : s.ctl = .pulse .p1 :: rest) (hstep : waitTick s = .next t) : t.timed := by
  obtain ⟨hspaced, hage⟩ := h
  obtain ⟨hclock, hdata, hwait⟩ := (ageOk_p1_iff hctl).mp hage
  have hclock' : s.waited.clockAge Config.holdTicks := State.aged.later hclock 1 rfl rfl (Nat.le_succ _)
  have hdata' : s.waited.dataAge (Config.setupTicks - (s.work.wcnt - 1)) :=
    State.aged.later (hwait hw) 1 rfl rfl (by omega)
  rw [waitTick_eq] at hstep
  split at hstep
  case isTrue hn =>
    have hleave : leaveDelay s.waited = goOn (.pulse .p2) rest s.waited := by
      simp only [leaveDelay, State.waited, State.tick_ctl, hctl]
    obtain rfl := goOn_next (hleave.symm.trans hstep)
    rw [hn] at hdata'
    exact ⟨hspaced, (ageOk_p2_iff rfl).mpr ⟨hclock', hdata'⟩⟩
  case isFalse =>
    cases hstep
    exact ⟨hspaced, (ageOk_p1_iff (s := s.waited) hctl).mpr
      ⟨hclock', State.aged.later hdata 1 rfl rfl (Nat.zero_le _), fun _ => hdata'⟩⟩

theorem waitTick_hold_timed (h : s.timed) (hw : 0 < s.work.wcnt) (hle : s.work.wcnt ≤ Config.holdTicks)
    (hctl : s.ctl = .pulse .p3 :: rest) (hstep : waitTick s = .next t) : t.timed := by
  obtain ⟨hspaced, hage⟩ := h
  obtain ⟨hclock, hdata, hwait⟩ := (ageOk_p3_iff hctl).mp hage
  have hclock' : s.waited.clockAge (Config.holdTicks - (s.work.wcnt - 1)) :=
    State.aged.later (hwait hw) 1 rfl rfl (by omega)
  have hdata' : s.waited.dataAge 0 := State.aged.later hdata 1 rfl rfl (Nat.zero_le _)
  rw [waitTick_eq] at hstep
  split at hstep
  case isTrue hn =>
    have hleave : leaveDelay s.waited = finish s.waited rest := by
      simp only [leaveDelay, State.waited, State.tick_ctl, hctl]
    rw [hn] at hclock'
    exact timed_of_follows (b := s.waited) hspaced ⟨hclock', hdata'⟩ hn (finish_follows (hleave.symm.trans hstep))
  case isFalse =>
    cases hstep
    exact ⟨hspaced, (ageOk_p3_iff (s := s.waited) hctl).mpr
      ⟨State.aged.later hclock 1 rfl rfl (Nat.zero_le _), hdata', fun _ => hclock'⟩⟩

theorem waitTick_poll_timed (h : s.timed) (hctl : s.ctl = .meas .m3c :: rest)
    (hstep : waitTick s = .next t) : t.timed := by
  obtain ⟨hspaced, hage⟩ := h
  have hrested : s.waited.rested := ((ageOk_outside_iff hctl rfl).mp hage).later 1 rfl rfl
  rw [waitTick_eq] at hstep
  split at hstep
  case isTrue hn =>
    exact timed_of_follows (b := s.waited) hspaced hrested hn
      (loopM3_follows ((leaveDelay_at_m3c (s := s.waited) hctl).symm.trans hstep))
  case isFalse =>
    cases hstep
    exact ⟨hspaced, (ageOk_outside_iff (s := s.waited) hctl rfl).mpr hrested⟩

/-- A running WAIT stands at one of the three WAIT statements, with no more ticks to go than it loads. -/
theorem waitTick_timed (h : s.timed) (hwait : s.waitOk) (hw : 0 < s.work.wcnt) (hstep : waitTick s = .next t) :
    t.timed := by
  rcases hctl : s.ctl with _ | ⟨f, rest⟩
  · simp [State.waitOk, hctl, hw.ne'] at hwait
  obtain ⟨hf, hle, -⟩ := (waitOk_iff hctl hw.ne').mp hwait
  cases f with
  | pulse p =>
    cases p with
    | p1 => exact waitTick_setup_timed h hw hle hctl hstep
    | p2 => cases hf
    | p3 => exact waitTick_hold_timed h hw hle hctl hstep
  | meas c =>
    cases c
    case m3c => exact waitTick_poll_timed h hctl hstep
    all_goals cases hf
  | _ => cases hf

/-- A pending yield stands at M3c, and its end is the end of the loop body. -/
theorem endYield_timed (h : s.timed) (hpending : s.yieldOk) (hyield : s.stat.yieldReq = true)
    (hstep : endYield s = .next t) : t.timed := by
  obtain ⟨hwcnt, -, rest, hctl⟩ := hpending hyield
  obtain ⟨hspaced, hage⟩ := h
  exact timed_of_follows (b := { s with stat := { s.stat with yieldReq := false } }) hspaced
    ((ageOk_outside_iff hctl rfl).mp hage) hwcnt (loopM3_follows ((endYield_at_m3c hctl).symm.trans hstep))

/-! ### The machine's moves -/

theorem blockMove_timed (hinv : s.Inv) (h : s.timed) (hstep : blockMove s = .next t) : t.timed := by
  rcases blockMove_cases hstep with ⟨-, rfl⟩ | ⟨-, -, -, rfl⟩ | ⟨-, hyield, -, hend⟩ | ⟨-, -, hw, htick⟩ |
    ⟨-, -, -, -, rfl⟩ | ⟨-, -, hwcnt, f, rest, hctl, hstmt⟩
  · exact h
  · exact h.later 1 rfl rfl rfl rfl
  · exact endYield_timed h hinv.yield_ hyield hend
  · exact waitTick_timed h hinv.wait hw htick
  · exact h.later 1 rfl rfl rfl rfl
  · exact statement_timed h hwcnt hctl hstmt

/-- A move that touches neither trace, time nor position. -/
theorem State.timed.still (h : s.timed) (htrace : t.trace = s.trace) (hticks : t.ticks = s.ticks)
    (hctl : t.ctl = s.ctl) (hwcnt : t.work.wcnt = s.work.wcnt) : t.timed :=
  h.later 0 htrace hticks hctl hwcnt

theorem State.timed.taken (h : s.timed) (moves : List Move) : (s.taken moves).timed := h.still rfl rfl rfl rfl

theorem State.timed.reject (h : s.timed) : s.reject.timed := by
  unfold State.reject
  split <;> exact h.still rfl rfl rfl rfl

theorem waitIdle_timed (h : s.timed) : (waitIdle s).timed := by
  rw [waitIdle_eq]
  exact h.still rfl rfl rfl rfl

theorem waitYield_timed (h : s.timed) : (waitYield s).timed := by
  rcases waitYield_cases s with ⟨-, heq⟩ | ⟨-, -, heq⟩ <;> rw [heq] <;> exact h.still rfl rfl rfl rfl

/-- A command is accepted on an idle block, where the line has rested. -/
theorem exec_timed (hinv : s.Inv) (h : s.timed) {i : Instr} (hstep : exec i s = .next t) : t.timed := by
  obtain ⟨x, hx⟩ := exec_is_an_offer i s
  rw [hx] at hstep
  cases hstep
  rcases offer_cases i x s with ⟨-, heq⟩ | ⟨-, -, heq⟩ | ⟨-, hbusy, heq⟩ <;> rw [heq]
  · exact h
  · exact h.still rfl rfl rfl rfl
  · exact ⟨h.1, (ageOk_outside_iff rfl rfl).mpr ((ageOk_empty_iff (hinv.busyIff.mp hbusy)).mp h.2)⟩

theorem assertRst_timed (s : State) : s.assertRst.timed := ⟨List.Pairwise.nil, nofun, nofun⟩

theorem hostWrite_timed (h : s.timed) (a : Addr) (v : Word) : (s.hostWrite a v).timed := by
  unfold State.hostWrite
  split <;> exact h.still rfl rfl rfl rfl

theorem hostAct_timed (hinv : s.Inv) (h : s.timed) {a : HostAct} (hstep : hostAct a s = .next t) : t.timed := by
  cases a with
  | read addr => cases hstep; exact h.still rfl rfl rfl rfl
  | write addr v => cases hstep; exact hostWrite_timed h addr v
  | hookReturn =>
    cases hyield : s.stat.yieldReq with
    | false =>
      rw [hookReturnOutsideAYieldIsIgnored s hyield] at hstep
      cases hstep
      exact h
    | true => exact endYield_timed h hinv.yield_ hyield ((if_pos hyield).symm.trans hstep)
  | driveAck l => cases hstep; exact h.still rfl rfl rfl rfl
  | driveRst l =>
    cases hstep
    cases l with
    | false => exact h.still rfl rfl rfl rfl
    | true => exact assertRst_timed s

theorem step_timed (hinv : s.Inv) (h : s.timed) (hstep : step s = .next t) : t.timed := by
  rcases step_cases s with ⟨-, heq⟩ | ⟨m, moves, -, hm⟩
  · exact blockMove_timed hinv h (heq.symm.trans hstep)
  have hinv' := hinv.taken moves
  have h' := h.taken moves
  rcases hm with ⟨-, heq⟩ | ⟨-, heq⟩ | ⟨-, heq⟩ | ⟨w, i, -, -, heq⟩ | ⟨w, why, -, -, heq⟩ | ⟨a, -, -, heq⟩ <;>
    rw [heq] at hstep
  · exact blockMove_timed hinv' h' hstep
  · cases hstep; exact waitIdle_timed h'
  · cases hstep; exact waitYield_timed h'
  · exact exec_timed hinv' h' hstep
  · cases hstep; exact h'.reject
  · exact hostAct_timed hinv' h' hstep

/-- Settles O43: the invariant is kept by O42, and with it the spacing and the ages by every move. -/
theorem everyStepKeepsTheTimingContract : Obligations.EveryStepKeepsTheTimingContract := by
  rintro s t ⟨hinv, htimed⟩ hstep
  obtain ⟨t', hstep', hinv'⟩ := everyStepKeepsTheInvariant s hinv
  obtain rfl := Host.Outcome.next.inj (hstep'.symm.trans hstep)
  exact ⟨hinv', step_timed hinv htimed hstep⟩

end Sys2Proof.Machine
end

section
/-! PROOFS. The block's own moves look neither at ILL, the host's agenda nor its read log, and but for reset and `yield_ack`
not at the pins; so host accesses do not disturb a running command (R72, R228). -/

namespace Sys2Proof.Machine

variable {s t : State}

/-- A change of the four parts of the state that no statement looks at. -/
structure Overlay where
  ill : Bool → Bool
  pins : Pins → Pins
  agenda : List Move → List Move
  readLog : List (Addr × Word) → List (Addr × Word)

def State.over (o : Overlay) (s : State) : State :=
  { s with
    stat := { s.stat with ill := o.ill s.stat.ill }
    pins := o.pins s.pins
    world := { s.world with agenda := o.agenda s.world.agenda, readLog := o.readLog s.world.readLog } }

/-- The state of an outcome that answers next, changed. -/
def mapNext (g : State → State) : Result → Result
  | .next t => .next (g t)
  | .fault f => .fault f
  | .refused r => .refused r

/-! ### The sequencer -/

section Sequencer
variable (o : Overlay) (rest : List Frame) (s : State)

theorem loopW2_over : loopW2 rest (s.over o) = mapNext (State.over o) (loopW2 rest s) := by
  unfold loopW2
  rw [apply_ite (mapNext (State.over o))]
  rfl

theorem loopB2_over : loopB2 rest (s.over o) = mapNext (State.over o) (loopB2 rest s) := by
  unfold loopB2
  rw [apply_ite (mapNext (State.over o))]
  rfl

theorem loopQ3_over : loopQ3 rest (s.over o) = mapNext (State.over o) (loopQ3 rest s) := by
  unfold loopQ3
  rw [apply_ite (mapNext (State.over o))]
  rfl

theorem loopM3_over : loopM3 rest (s.over o) = mapNext (State.over o) (loopM3 rest s) := by
  unfold loopM3
  rw [apply_ite (mapNext (State.over o))]
  rfl

theorem finish_over (c : List Frame) : finish (s.over o) c = mapNext (State.over o) (finish s c) := by
  induction c with
  | nil => rfl
  | cons f rest ih =>
    cases f with
    | pulse | release => rfl
    | wrbyte w =>
      cases w
      case w2c => exact loopW2_over o rest s
      case w6 => exact ih
      all_goals rfl
    | rdbyte w =>
      cases w
      case b2c => exact loopB2_over o rest s
      case b7 => exact ih
      all_goals rfl
    | start c =>
      cases c
      case s8 => exact ih
      all_goals rfl
    | connreset c =>
      cases c
      case q3b => exact loopQ3_over o rest s
      case q4 => exact ih
      all_goals rfl
    | meas c => cases c <;> rfl
    | rdstat c => cases c <;> rfl
    | wrstat c => cases c <;> rfl
    | wrapper x => cases x <;> rfl

theorem leaveDelay_over : leaveDelay (s.over o) = mapNext (State.over o) (leaveDelay s) := by
  unfold leaveDelay
  rw [show (s.over o).ctl = s.ctl from rfl]
  split
  · rfl
  · exact finish_over o s _
  · exact loopM3_over o _ s
  · rfl

theorem startWait_over (n : Nat) : startWait n (s.over o) = mapNext (State.over o) (startWait n s) := by
  have hleave := leaveDelay_over o { s.record (.wait n) with work := { s.work with wcnt := n } }
  unfold startWait
  split
  · exact hleave
  · rfl

theorem waitTick_over : waitTick (s.over o) = mapNext (State.over o) (waitTick s) := by
  have hleave := leaveDelay_over o s.waited
  rw [waitTick_eq, waitTick_eq, apply_ite (mapNext (State.over o)), ← hleave]
  rfl

theorem startYield_over (h : Bool) : startYield h (s.over o) = mapNext (State.over o) (startYield h s) := by
  cases h with
  | true => rfl
  | false => exact startWait_over o s Config.pollWaitTicks

theorem endYield_over : endYield (s.over o) = mapNext (State.over o) (endYield s) :=
  leaveDelay_over o { s with stat := { s.stat with yieldReq := false } }

theorem stmtMeas_over (c : MeasAt) : stmtMeas c rest (s.over o) = mapNext (State.over o) (stmtMeas c rest s) := by
  cases c
  case m3b =>
    rw [stmtMeas, stmtMeas, apply_ite (mapNext (State.over o))]
    rfl
  case m3c => exact startYield_over o s (hookOperand s.work.arg)
  case m7 =>
    by_cases hck : s.work.ck = expected s.crcEn s.work.hi s.work.lo
    · rw [stmtMeas_m7_match hck, stmtMeas_m7_match (s := s.over o) hck]
      exact finish_over o { s with work := { s.work with res := .success (rawOf s.work.hi s.work.lo) } } rest
    · rw [stmtMeas_m7_mismatch hck, stmtMeas_m7_mismatch (s := s.over o) hck]
      rfl
  case m8ret => exact finish_over o { s with work := { s.work with res := .failure s.work.cause } } rest
  all_goals rfl

theorem commitRaw_over (sel : Sel) (raw : Raw) :
    (s.over o).commitRaw sel raw = (s.commitRaw sel raw).over o := by
  cases sel <;> rfl

theorem completeMeas_over : completeMeas (s.over o) = (completeMeas s).over o := by
  cases hres : s.work.res with
  | success raw =>
    rw [completeMeas_success hres, completeMeas_success (s := s.over o) hres, commitRaw_over]
    rfl
  | failure c =>
    rw [completeMeas_failure hres, completeMeas_failure (s := s.over o) hres]
    rfl

theorem stmtWrapper_over (x : WrapAt) : stmtWrapper x (s.over o) = (stmtWrapper x s).over o := by
  cases x
  case x3b => exact completeMeas_over o s
  all_goals rfl

theorem statement_over (f : Frame) :
    statement f rest (s.over o) = mapNext (State.over o) (statement f rest s) := by
  cases f with
  | pulse p =>
    cases p with
    | p1 => exact startWait_over o s Config.setupTicks
    | p2 => rfl
    | p3 => exact startWait_over o s Config.holdTicks
  | release => exact finish_over o (s.sdaDir .released) rest
  | wrbyte w => cases w <;> rfl
  | rdbyte b => cases b <;> rfl
  | start c => cases c <;> rfl
  | connreset c => cases c <;> rfl
  | meas c => exact stmtMeas_over o rest s c
  | rdstat c =>
    cases c
    case t4 => exact finish_over o s rest
    all_goals rfl
  | wrstat c =>
    cases c
    case v4 => exact finish_over o { s with work := { s.work with e := s.work.e1 || s.work.e2 } } rest
    all_goals rfl
  | wrapper x => exact congrArg Host.Outcome.next (stmtWrapper_over o s x)

end Sequencer

/-! ### The block's own move -/

theorem blockMove_over {o : Overlay} (hpins : o.pins s.pins = s.pins) :
    blockMove (s.over o) = mapNext (State.over o) (blockMove s) := by
  have hpins' : (s.over o).pins = s.pins := hpins
  unfold blockMove
  rw [hpins', show (s.over o).stat.yieldReq = s.stat.yieldReq from rfl,
    show (s.over o).work = s.work from rfl, show (s.over o).ctl = s.ctl from rfl]
  split
  · rfl
  split
  · split
    · exact endYield_over o s
    · rfl
  split
  · exact waitTick_over o s
  split
  · rfl
  · exact statement_over o _ s _

/-- The block moves neither the pins nor the host. -/
theorem blockMove_keeps (h : blockMove s = .next t) : t.pins = s.pins ∧ t.world.agenda = s.world.agenda := by
  let o : Overlay := ⟨id, fun _ => s.pins, fun _ => s.world.agenda, id⟩
  have hover : blockMove s = mapNext (State.over o) (blockMove s) := blockMove_over (s := s) (o := o) rfl
  rw [h] at hover
  have ht : t = t.over o := Host.Outcome.next.inj hover
  exact ⟨congrArg (fun u => u.pins) ht, congrArg (fun u => u.world.agenda) ht⟩

/-- With another agenda the block makes the same move. -/
theorem blockMove_taken (moves : List Move) (h : blockMove s = .next t) :
    blockMove (s.taken moves) = .next (t.taken moves) := by
  have hover := blockMove_over (s := s) (o := ⟨id, id, fun _ => moves, id⟩) rfl
  rw [h] at hover
  exact hover

theorem hostWrite_of_busy (hbusy : s.stat.busy = true) (a : Addr) (v : Word) : s.hostWrite a v = s :=
  if_neg fun ⟨_, hidle, _⟩ => Bool.false_ne_true (hidle.symm.trans hbusy)

/-- Settles O13: a host read changes only the read log, and a rejected command only ILL. -/
theorem hostAccessesDoNotDisturbTheBlock : Obligations.HostAccessesDoNotDisturbTheBlock := by
  intro s t a v hrst hbusy h
  refine ⟨?read, hostWrite_of_busy hbusy a v, ?reject⟩
  case read =>
    have hover := blockMove_over (s := s) (o := ⟨id, id, id, ((a, s.readWord a) :: ·)⟩) rfl
    rw [h] at hover
    exact hover
  case reject =>
    have hover := blockMove_over (s := s) (o := ⟨fun _ => true, id, id, id⟩) rfl
    rw [h] at hover
    rw [State.reject, hrst]
    exact hover

end Sys2Proof.Machine
end

section
/-! SUPPORT. The big-step procedures keep pins, STAT, the operand byte and the agenda, and do not look at them; a run of the
block alone is also a run beside a host that waits for a yield (R34, R35, R229). -/

namespace Sys2Proof.Machine

variable {s t u : State} {f g : State → State}

/-! ### The setting of a procedure -/

/-- What the procedures neither write nor, but for the calls of a wrapper and of MEAS, look at. -/
structure Setting where
  pins : Pins
  stat : Stat
  arg : Byte
  agenda : List Move

def State.setting (s : State) : Setting := ⟨s.pins, s.stat, s.work.arg, s.world.agenda⟩

def State.under (c : Setting) (s : State) : State :=
  { s with
    pins := c.pins
    stat := c.stat
    work := { s.work with arg := c.arg }
    world := { s.world with agenda := c.agenda } }

/-- The operation is the same under every setting. -/
def Ignores (f : State → State) : Prop := ∀ c s, f (s.under c) = (f s).under c

theorem Ignores.comp (hg : Ignores g) (hf : Ignores f) : Ignores fun s => g (f s) := fun c s =>
  (congrArg g (hf c s)).trans (hg c (f s))

theorem Ignores.setting (hf : Ignores f) (s : State) : (f s).setting = s.setting :=
  congrArg (fun u => u.setting) (hf s.setting s)

theorem State.taken_eq_under (moves : List Move) (s : State) :
    s.taken moves = s.under { s.setting with agenda := moves } := rfl

theorem Ignores.taken (hf : Ignores f) (moves : List Move) (s : State) : f (s.taken moves) = (f s).taken moves := by
  rw [State.taken_eq_under, State.taken_eq_under, hf, hf.setting]

theorem Ignores.stat (hf : Ignores f) (s : State) : (f s).stat = s.stat := congrArg Setting.stat (hf.setting s)

theorem Ignores.pins (hf : Ignores f) (s : State) : (f s).pins = s.pins := congrArg Setting.pins (hf.setting s)

theorem Ignores.arg (hf : Ignores f) (s : State) : (f s).work.arg = s.work.arg := congrArg Setting.arg (hf.setting s)

/-! ### Byte frames, START and CONNRESET -/

theorem writeBit_ignores (m : Nat) : Ignores (writeBit m) := fun c s => by
  rw [writeBit_eq, writeBit_eq]
  rfl

theorem bigWriteBits_ignores (m : Nat) : Ignores (bigWriteBits m) := fun c s => by
  induction m generalizing s with
  | zero => rfl
  | succ m ih => rw [bigWriteBits_succ, bigWriteBits_succ, writeBit_ignores, ih]

theorem writeAck_ignores : Ignores writeAck := fun _ _ => rfl

theorem bigWrbyte_ignores (v : Byte) : Ignores (bigWrbyte v) := fun c s => by
  rw [bigWrbyte_eq_writeAck, bigWrbyte_eq_writeAck, ← writeAck_ignores, ← bigWriteBits_ignores]
  rfl

theorem readBit_ignores (m : Nat) : Ignores (readBit m) := fun _ _ => rfl

theorem bigReadBits_ignores (m : Nat) : Ignores (bigReadBits m) := fun c s => by
  induction m generalizing s with
  | zero => rfl
  | succ m ih => rw [bigReadBits_succ, bigReadBits_succ, readBit_ignores, ih]

theorem readAck_ignores (a : Level) : Ignores (readAck a) := fun _ _ => rfl

theorem bigRdbyte_ignores (a : Level) : Ignores (bigRdbyte a) := fun c s => by
  rw [bigRdbyte_eq_readAck, bigRdbyte_eq_readAck, ← readAck_ignores, ← bigReadBits_ignores]
  rfl

theorem bigStart_ignores : Ignores bigStart := fun c s => by
  rw [bigStart_eq, bigStart_eq]
  rfl

theorem bigConnreset_ignores : Ignores bigConnreset := fun c s => by
  rw [bigConnreset_eq, bigConnreset_eq]
  rfl

theorem keepE1_ignores : Ignores State.keepE1 := fun _ _ => rfl

theorem bigRdstat_ignores : Ignores bigRdstat := fun c s => by
  rw [bigRdstat_eq_frames, bigRdstat_eq_frames, bigStart_ignores, bigWrbyte_ignores, keepE1_ignores,
    bigRdbyte_ignores]

theorem bigWrstat_ignores (v : Byte) : Ignores (bigWrstat v) := fun c s => by
  rw [bigWrstat_eq_frames, bigWrstat_eq_frames, bigStart_ignores, bigWrbyte_ignores, keepE1_ignores,
    bigWrbyte_ignores]
  rfl

/-! ### MEAS (R166) -/

theorem bigYield_ignores (hook : Bool) (d : Nat) : Ignores (bigYield hook d) := fun _ _ => by
  cases hook <;> rfl

theorem bigPolls_under (hook : Bool) (d : Nat → Nat) (m : Nat) (c : Setting) (s : State) :
    bigPolls hook d m (s.under c) = ((bigPolls hook d m s).1, (bigPolls hook d m s).2.under c) := by
  induction m generalizing s with
  | zero => rfl
  | succ m ih =>
    by_cases hready : s.answer = .low
    · rw [bigPolls, bigPolls, if_pos hready, if_pos (show (s.under c).answer = .low from hready)]
      rfl
    · rw [bigPolls, bigPolls, if_neg hready, if_neg (show ¬ (s.under c).answer = .low from hready),
        ← ih, ← bigYield_ignores]
      rfl

/-- The register transfer after a read frame of MEAS: `hi <- r`, `lo <- r`, `ck <- r` (R166 M4 to M6). -/
def State.keepHi (s : State) : State := { s with work := { s.work with hi := s.work.r } }
def State.keepLo (s : State) : State := { s with work := { s.work with lo := s.work.r } }
def State.keepCk (s : State) : State := { s with work := { s.work with ck := s.work.r } }

theorem bigRetrieve_eq_frames (s : State) :
    bigRetrieve s = (bigRdbyte .low (bigRdbyte .high (bigRdbyte .high s).keepHi).keepLo).keepCk := rfl

theorem keepHi_ignores : Ignores State.keepHi := fun _ _ => rfl

theorem keepLo_ignores : Ignores State.keepLo := fun _ _ => rfl

theorem keepCk_ignores : Ignores State.keepCk := fun _ _ => rfl

theorem bigRetrieve_ignores : Ignores bigRetrieve := fun c s => by
  rw [bigRetrieve_eq_frames, bigRetrieve_eq_frames, bigRdbyte_ignores, keepHi_ignores, bigRdbyte_ignores,
    keepLo_ignores, bigRdbyte_ignores, keepCk_ignores]

theorem bigMeasFail_ignores (cause : Cause) : Ignores (bigMeasFail cause) := fun c s => by
  unfold bigMeasFail
  rw [show ({ s.under c with work := { (s.under c).work with cause := cause } } : State) =
    State.under c { s with work := { s.work with cause := cause } } from rfl, bigConnreset_ignores]
  rfl

theorem bigCheck_match (hck : s.work.ck = expected s.crcEn s.work.hi s.work.lo) :
    bigCheck s = { s with work := { s.work with res := .success (rawOf s.work.hi s.work.lo) } } := if_pos hck

theorem bigCheck_mismatch (hck : s.work.ck ≠ expected s.crcEn s.work.hi s.work.lo) :
    bigCheck s = bigMeasFail .checksumMismatch s := if_neg hck

theorem bigCheck_ignores : Ignores bigCheck := fun c s => by
  by_cases hck : s.work.ck = expected s.crcEn s.work.hi s.work.lo
  · rw [bigCheck_match hck, bigCheck_match (s := s.under c) hck]
    rfl
  · rw [bigCheck_mismatch hck, bigCheck_mismatch (s := s.under c) hck, bigMeasFail_ignores]

/-- MEAS up to its first poll (R166 M1, M2). -/
def bigMeasure (sel : Sel) (s : State) : State := bigWrbyte (code sel) (bigStart s)

theorem bigMeasure_ignores (sel : Sel) : Ignores (bigMeasure sel) := (bigWrbyte_ignores _).comp bigStart_ignores

/-- MEAS after its polls: the retrieval, or the exit of a timeout (R166 M3d to M8). -/
def bigOutcome (p : Bool × State) : State :=
  if p.1 then bigCheck (bigRetrieve p.2) else bigMeasFail .pollTimeout p.2

theorem bigMeas_eq (sel : Sel) (hook : Bool) (d : Nat → Nat) (s : State) :
    bigMeas sel hook d s = bigOutcome (bigPolls hook d Config.pollMax (bigMeasure sel s)) := rfl

theorem bigOutcome_ready (s : State) : bigOutcome (true, s) = bigCheck (bigRetrieve s) := if_pos rfl

theorem bigOutcome_timeout (s : State) : bigOutcome (false, s) = bigMeasFail .pollTimeout s :=
  if_neg Bool.false_ne_true

theorem bigOutcome_under (c : Setting) (p : Bool × State) :
    bigOutcome (p.1, p.2.under c) = (bigOutcome p).under c := by
  obtain ⟨ready, s⟩ := p
  cases ready with
  | false => rw [bigOutcome_timeout, bigOutcome_timeout, bigMeasFail_ignores]
  | true => rw [bigOutcome_ready, bigOutcome_ready, bigRetrieve_ignores, bigCheck_ignores]

theorem bigMeas_ignores (sel : Sel) (hook : Bool) (d : Nat → Nat) : Ignores (bigMeas sel hook d) := fun c s => by
  rw [bigMeas_eq, bigMeas_eq, bigMeasure_ignores, bigPolls_under, bigOutcome_under]

/-! ### The procedure of a command, and its completion -/

/-- The procedure that a command's wrapper calls. -/
def bigProcedure (d : Nat → Nat) : Instr → State → State
  | .start => bigStart
  | .connreset => bigConnreset
  | .meas sel hook => bigMeas sel hook d
  | .rdstat => bigRdstat
  | .wrstat value => bigWrstat value
  | .wrbyte value => bigWrbyte value
  | .rdbyte ack => bigRdbyte ack

/-- The completion in a command's wrapper (R161). -/
def completionOf : Instr → WrapAt
  | .start => .x1b
  | .connreset => .x2b
  | .meas _ _ => .x3b
  | .rdstat => .x4b
  | .wrstat _ => .x5b
  | .wrbyte _ => .x6b
  | .rdbyte _ => .x7b

theorem bigCommand_eq (d : Nat → Nat) (i : Instr) (s : State) :
    bigCommand d i s = stmtWrapper (completionOf i) (bigProcedure d i s) := by
  cases i <;> rfl

theorem bigProcedure_ignores (d : Nat → Nat) (i : Instr) : Ignores (bigProcedure d i) := by
  cases i with
  | start => exact bigStart_ignores
  | connreset => exact bigConnreset_ignores
  | meas sel hook => exact bigMeas_ignores sel hook d
  | rdstat => exact bigRdstat_ignores
  | wrstat value => exact bigWrstat_ignores value
  | wrbyte value => exact bigWrbyte_ignores value
  | rdbyte ack => exact bigRdbyte_ignores ack

theorem stmtWrapper_taken (x : WrapAt) (moves : List Move) (s : State) :
    stmtWrapper x (s.taken moves) = (stmtWrapper x s).taken moves :=
  stmtWrapper_over ⟨id, id, fun _ => moves, id⟩ s x

theorem bigCommand_taken (d : Nat → Nat) (i : Instr) (moves : List Move) (s : State) :
    bigCommand d i (s.taken moves) = (bigCommand d i s).taken moves := by
  rw [bigCommand_eq, bigCommand_eq, (bigProcedure_ignores d i).taken, stmtWrapper_taken]

/-! ### Runs beside a host that waits -/

/-- A run of some steps begins with a step that answers next. -/
theorem run_succ_next {k : Nat} (h : Host.Core.run core (k + 1) s = .next t) :
    ∃ u, step s = .next u ∧ Host.Core.run core k u = .next t := by
  cases hstep : step s with
  | next u => exact ⟨u, rfl, (run_succ hstep).symm.trans h⟩
  | fault | refused =>
    have hstep' : core.step s = _ := hstep
    simp only [Host.Core.run, hstep'] at h
    cases h

/-- The host does nothing, or holds `yield_ack` at 0 and waits for a yield. -/
def waitsForYield (pins : Pins) (moves : List Move) : Prop :=
  moves = [] ∨ pins.yieldAck = false ∧ ∃ rest, moves = .waitYield :: rest

/-- The sequencer runs a command, and no yield is pending. -/
def State.busyRunning (s : State) : Prop := s.stat.busy = true ∧ s.stat.yieldReq = false

/-- Beside a host that waits, the running block makes the move that it makes alone. -/
theorem State.busyRunning.reaches_taken (hs : s.busyRunning) {moves : List Move}
    (hmoves : waitsForYield s.pins moves) (h : blockMove s = .next t) :
    Reaches (s.taken moves) (t.taken moves) := by
  have hmove := blockMove_taken moves h
  rcases hmoves with rfl | ⟨-, rest, rfl⟩
  · exact ⟨1, (run_one _).trans hmove⟩
  · have hwait : step (s.taken (.waitYield :: rest)) = .next (s.taken (.run :: .waitYield :: rest)) :=
      (step_of_waitYield rfl).trans (congrArg _ (waitYield_of_running (s := s.taken rest) hs.2 hs.1))
    exact ⟨2, (run_succ hwait).trans ((run_one _).trans hmove)⟩

/-- A block that has moved and runs a command, was running one. -/
theorem State.busyRunning.of_blockMove (ht : t.busyRunning) (hmoves : s.pins.yieldAck = false)
    (h : blockMove s = .next t) : s.busyRunning := by
  obtain ⟨hbusy, hyield⟩ := ht
  refine ⟨?busy, ?yield⟩
  case busy =>
    rcases blockMove_quiet_or_completes h with hq | hc
    · rw [hq.flags] at hbusy
      exact hbusy
    · exact absurd (hc.completed.busy.symm.trans hbusy) Bool.false_ne_true
  case yield =>
    rcases blockMove_cases h with ⟨-, rfl⟩ | ⟨-, -, -, rfl⟩ | ⟨-, -, hack, -⟩ | ⟨-, hy, -⟩ | ⟨-, hy, -⟩ |
      ⟨-, hy, -⟩
    · exact hyield
    · exact hyield
    · exact absurd (hmoves.symm.trans hack) Bool.false_ne_true
    · exact hy
    · exact hy
    · exact hy

theorem State.alone.taken (ha : s.alone) : s.taken [] = s := by
  rw [← show s.world.agenda = [] from ha, State.taken_self]

theorem Reaches.alone (h : Reaches s t) (ha : s.alone) : t.alone := by
  obtain ⟨k, hk⟩ := h
  induction k generalizing s with
  | zero => exact Host.Outcome.next.inj hk ▸ ha
  | succ k ih =>
    obtain ⟨u, hstep, hrun⟩ := run_succ_next hk
    rw [step_of_alone ha] at hstep
    exact ih ((blockMove_keeps hstep).2.trans ha) hrun

/-- A run of the block alone to a state in which it runs a command is also a run beside a host that holds
`yield_ack` at 0 and waits: every state of the run was one in which it ran that command. -/
theorem State.busyRunning.run_taken {k : Nat} {moves : List Move} (ht : t.busyRunning) (ha : s.alone)
    (hack : s.pins.yieldAck = false) (hmoves : ∃ rest, moves = .waitYield :: rest)
    (h : Host.Core.run core k s = .next t) : s.busyRunning ∧ Reaches (s.taken moves) (t.taken moves) := by
  induction k generalizing s with
  | zero =>
    obtain rfl : s = t := Host.Outcome.next.inj h
    exact ⟨ht, .refl _⟩
  | succ k ih =>
    obtain ⟨u, hstep, hrun⟩ := run_succ_next h
    rw [step_of_alone ha] at hstep
    obtain ⟨hpins, hagenda⟩ := blockMove_keeps hstep
    obtain ⟨hu, hreach⟩ := ih (hagenda.trans ha) (hpins ▸ hack) hrun
    have hs := hu.of_blockMove hack hstep
    exact ⟨hs, (hs.reaches_taken (.inr ⟨hack, hmoves⟩) hstep).trans hreach⟩

theorem Reaches.taken (h : Reaches s t) (ha : s.alone) {moves : List Move}
    (hmoves : waitsForYield s.pins moves) (ht : t.busyRunning) : Reaches (s.taken moves) (t.taken moves) := by
  rcases hmoves with rfl | ⟨hack, hmoves⟩
  · rw [ha.taken, (h.alone ha).taken]
    exact h
  · obtain ⟨k, hk⟩ := h
    exact (ht.run_taken ha hack hmoves hk).2

end Sys2Proof.Machine
end

section
/-! SUPPORT. MEAS runs step by step to its big-step effect, beside any host that answers its yields after given times
(R34, R35, R166, R168). -/

namespace Sys2Proof.Machine

variable {s t u v : State} {rest : List Frame} {hook : Bool} {pins : Pins} {d : Nat → Nat} {A : Nat → List Move}

/-! ### A sequencer that is free to go on -/

theorem State.sequencing.rst (hs : s.sequencing) : s.pins.rst = false := hs.1
theorem State.sequencing.yieldReq (hs : s.sequencing) : s.stat.yieldReq = false := hs.2.1
theorem State.sequencing.wcnt (hs : s.sequencing) : s.work.wcnt = 0 := hs.2.2.1
theorem State.sequencing.alone (hs : s.sequencing) : s.alone := hs.2.2.2

/-! ### Up to the first poll (R166 M1 to M3) -/

/-- The state with the loop counter `n` at a poll. -/
def State.atPoll (n : Nat) (s : State) : State := { s with work := { s.work with n := n } }

theorem State.sequencing.after_bigMeasure (hs : s.sequencing) (sel : Sel) : (bigMeasure sel s).sequencing :=
  hs.after_bigStart.after_bigWrbyte (code sel)

theorem State.sequencing.reaches_bigMeasure (hs : s.sequencing) {sel : Sel} (hsel : selOperand s.work.arg = sel) :
    Reaches (s.goto (.meas .m1) rest) (((bigMeasure sel s).atPoll 1).goto (.meas .m3a) rest) := by
  have hcall : statement (.meas .m2) rest ((bigStart s).goto (.meas .m2) rest) =
      .next (((bigStart s).goto (.meas .m2) rest).callWrbyte (code sel)) := by
    rw [← hsel, ← bigStart_work_arg]
    rfl
  have hm1 : Reaches (s.goto (.meas .m1) rest) ((bigStart s).goto (.meas .m2) rest) := hs.reaches_start rfl rfl
  have hm2 : Reaches ((bigStart s).goto (.meas .m2) rest) ((bigMeasure sel s).goto (.meas .m3) rest) :=
    hs.after_bigStart.reaches_wrbyte hcall rfl
  have hm3 : Reaches ((bigMeasure sel s).goto (.meas .m3) rest)
      (((bigMeasure sel s).atPoll 1).goto (.meas .m3a) rest) := (hs.after_bigMeasure sel).reaches rfl
  exact hm1.trans (hm2.trans hm3)

/-! ### One poll (R166 M3a, M3b) -/

theorem State.sequencing.after_samplePoll (hs : s.sequencing) (n : Nat) : (samplePoll n s).sequencing := hs

theorem State.sequencing.reaches_samplePoll (hs : s.sequencing) (n : Nat) :
    Reaches ((s.atPoll n).goto (.meas .m3a) rest) ((samplePoll n s).goto (.meas .m3b) rest) :=
  State.sequencing.reaches (s := s.atPoll n) hs rfl

theorem State.sequencing.reaches_ready (hs : s.sequencing) {n : Nat} (h : s.answer = .low) :
    Reaches ((s.atPoll n).goto (.meas .m3a) rest) ((samplePoll n s).goto (.meas .m4) rest) :=
  (hs.reaches_samplePoll n).trans ((hs.after_samplePoll n).reaches (stmtMeas_m3b_ready h))

theorem State.sequencing.reaches_notReady (hs : s.sequencing) {n : Nat} (h : s.answer ≠ .low) :
    Reaches ((s.atPoll n).goto (.meas .m3a) rest) ((samplePoll n s).goto (.meas .m3c) rest) :=
  (hs.reaches_samplePoll n).trans ((hs.after_samplePoll n).reaches (stmtMeas_m3b_notReady h))

/-! ### After the polls (R166 M3d to M8) -/

/-- `cause <- c`, before the bus reset of a failed MEAS (R166 M3d, M7). -/
def State.atCause (c : Cause) (s : State) : State := { s with work := { s.work with cause := c } }

/-- The failure result of MEAS (R166 M8). -/
def State.failed (s : State) : State := { s with work := { s.work with res := .failure s.work.cause } }

theorem bigMeasFail_eq (c : Cause) (s : State) : bigMeasFail c s = (bigConnreset (s.atCause c)).failed := rfl

theorem State.sequencing.after_bigMeasFail (hs : s.sequencing) (c : Cause) : (bigMeasFail c s).sequencing :=
  State.sequencing.after_bigConnreset (s := s.atCause c) hs

theorem State.sequencing.reaches_bigMeasFail (hs : s.sequencing) {c : Cause}
    (hret : finish (bigMeasFail c s) rest = .next t) :
    Reaches ((s.atCause c).goto (.meas .m8call) rest) t := by
  let s1 := s.atCause c
  have hs1 : s1.sequencing := hs
  have hcall : Reaches (s1.goto (.meas .m8call) rest) (s1.goto (.connreset .q1dir) (.meas .m8call :: rest)) :=
    hs1.reaches rfl
  have hreset : Reaches (s1.goto (.connreset .q1dir) (.meas .m8call :: rest))
      ((bigConnreset s1).goto (.meas .m8ret) rest) := hs1.reaches_bigConnreset rfl
  have hstmt : statement (.meas .m8ret) rest ((bigConnreset s1).goto (.meas .m8ret) rest) = .next t :=
    (finish_goto (bigConnreset s1).failed (.meas .m8ret) rest rest).trans hret
  exact hcall.trans (hreset.trans (hs1.after_bigConnreset.reaches hstmt))

theorem State.sequencing.after_keepHi (hs : s.sequencing) : s.keepHi.sequencing := hs
theorem State.sequencing.after_keepLo (hs : s.sequencing) : s.keepLo.sequencing := hs
theorem State.sequencing.after_keepCk (hs : s.sequencing) : s.keepCk.sequencing := hs

theorem finish_meas_m4 (s : State) :
    finish s (.meas .m4 :: rest) = .next (s.keepHi.goto (.meas .m5) rest) := rfl

theorem finish_meas_m5 (s : State) :
    finish s (.meas .m5 :: rest) = .next (s.keepLo.goto (.meas .m6) rest) := rfl

theorem finish_meas_m6 (s : State) :
    finish s (.meas .m6 :: rest) = .next (s.keepCk.goto (.meas .m7) rest) := rfl

theorem State.sequencing.after_bigRetrieve (hs : s.sequencing) : (bigRetrieve s).sequencing := by
  rw [bigRetrieve_eq_frames]
  exact ((((hs.after_bigRdbyte .high).after_keepHi).after_bigRdbyte .high).after_keepLo.after_bigRdbyte
    .low).after_keepCk

theorem State.sequencing.reaches_bigRetrieve (hs : s.sequencing) :
    Reaches (s.goto (.meas .m4) rest) ((bigRetrieve s).goto (.meas .m7) rest) := by
  let s5 := (bigRdbyte .high s).keepHi
  let s6 := (bigRdbyte .high s5).keepLo
  have hs5 : s5.sequencing := (hs.after_bigRdbyte .high).after_keepHi
  have hs6 : s6.sequencing := (hs5.after_bigRdbyte .high).after_keepLo
  have hm4 : Reaches (s.goto (.meas .m4) rest) (s5.goto (.meas .m5) rest) :=
    hs.reaches_rdbyte rfl (finish_meas_m4 _)
  have hm5 : Reaches (s5.goto (.meas .m5) rest) (s6.goto (.meas .m6) rest) :=
    hs5.reaches_rdbyte rfl (finish_meas_m5 _)
  have hm6 : Reaches (s6.goto (.meas .m6) rest) ((bigRdbyte .low s6).keepCk.goto (.meas .m7) rest) :=
    hs6.reaches_rdbyte rfl (finish_meas_m6 _)
  rw [bigRetrieve_eq_frames]
  exact hm4.trans (hm5.trans hm6)

theorem State.sequencing.after_bigCheck (hs : s.sequencing) : (bigCheck s).sequencing := by
  by_cases hck : s.work.ck = expected s.crcEn s.work.hi s.work.lo
  · rw [bigCheck_match hck]
    exact hs
  · rw [bigCheck_mismatch hck]
    exact hs.after_bigMeasFail _

theorem State.sequencing.reaches_bigCheck (hs : s.sequencing) (hret : finish (bigCheck s) rest = .next t) :
    Reaches (s.goto (.meas .m7) rest) t := by
  by_cases hck : s.work.ck = expected s.crcEn s.work.hi s.work.lo
  · rw [bigCheck_match hck] at hret
    have hstmt := stmtMeas_m7_match (s := s.goto (.meas .m7) rest) (rest := rest) hck
    exact hs.reaches (hstmt.trans ((finish_goto _ (.meas .m7) rest rest).trans hret))
  · rw [bigCheck_mismatch hck] at hret
    have hm7 : Reaches (s.goto (.meas .m7) rest) ((s.atCause .checksumMismatch).goto (.meas .m8call) rest) :=
      hs.reaches (stmtMeas_m7_mismatch (s := s.goto (.meas .m7) rest) hck)
    exact hm7.trans (hs.reaches_bigMeasFail hret)

/-- The label after the polls: the retrieval when the device was ready, else the timeout. -/
def afterPolls (ready : Bool) : Frame := .meas (if ready then .m4 else .m3d)

theorem State.sequencing.after_bigOutcome (hs : s.sequencing) (ready : Bool) :
    (bigOutcome (ready, s)).sequencing := by
  cases ready with
  | true => rw [bigOutcome_ready]; exact hs.after_bigRetrieve.after_bigCheck
  | false => rw [bigOutcome_timeout]; exact hs.after_bigMeasFail _

theorem State.sequencing.reaches_bigOutcome (hs : s.sequencing) {ready : Bool}
    (hret : finish (bigOutcome (ready, s)) rest = .next t) : Reaches (s.goto (afterPolls ready) rest) t := by
  cases ready with
  | true =>
    rw [bigOutcome_ready] at hret
    exact hs.reaches_bigRetrieve.trans (hs.after_bigRetrieve.reaches_bigCheck hret)
  | false =>
    rw [bigOutcome_timeout] at hret
    have hm3d : Reaches (s.goto (.meas .m3d) rest) ((s.atCause .pollTimeout).goto (.meas .m8call) rest) :=
      hs.reaches rfl
    exact hm3d.trans (hs.reaches_bigMeasFail hret)

/-! ### The yields (R168) -/

/-- MEAS runs alone under these pins, with or without a hook. -/
structure State.measuring (hook : Bool) (pins : Pins) (s : State) : Prop where
  free : s.sequencing
  busy : s.stat.busy = true
  pins_eq : s.pins = pins
  hook_eq : hookOperand s.work.arg = hook

theorem State.measuring.busyRunning (h : s.measuring hook pins) : s.busyRunning := ⟨h.busy, h.free.yieldReq⟩

theorem State.measuring.of_setting (h : s.measuring hook pins) (hset : t.setting = s.setting)
    (hwcnt : t.work.wcnt = 0) : t.measuring hook pins := by
  have hpins : t.pins = s.pins := congrArg Setting.pins hset
  have hstat : t.stat = s.stat := congrArg Setting.stat hset
  have harg : t.work.arg = s.work.arg := congrArg Setting.arg hset
  have hagenda : t.world.agenda = s.world.agenda := congrArg Setting.agenda hset
  obtain ⟨⟨hrst, hyield, -, ha⟩, hbusy, hp, hh⟩ := h
  exact ⟨⟨hpins ▸ hrst, hstat ▸ hyield, hwcnt, hagenda.trans ha⟩, hstat ▸ hbusy, hpins.trans hp, harg ▸ hh⟩

/-- A host that answers the yields of MEAS: `A n` are its moves when poll `n` begins, and the yield after that
poll takes its big-step effect, of `d n` ticks. -/
structure AnswersYields (hook : Bool) (d : Nat → Nat) (pins : Pins) (A : Nat → List Move) : Prop where
  waits : ∀ n, waitsForYield pins (A n)
  yields : ∀ n, 1 ≤ n → n ≤ 250 → ∀ (u v : State) (rest : List Frame), u.measuring hook pins →
    loopM3 rest (bigYield hook (d n) u) = .next v →
    Reaches ((u.goto (.meas .m3c) rest).taken (A n)) (v.taken (A (n + 1)))

theorem loopM3_goto (s : State) (f : Frame) (rest c : List Frame) : loopM3 rest (s.goto f c) = loopM3 rest s := by
  unfold loopM3
  rfl

/-- The loop M3 goes on under the same setting. -/
theorem loopM3_setting (h : loopM3 rest s = .next t) : t.setting = s.setting := by
  unfold loopM3 at h
  split at h <;> cases h <;> rfl

theorem State.measuring.after_samplePoll (h : s.measuring hook pins) (n : Nat) :
    (samplePoll n s).measuring hook pins := h.of_setting rfl h.free.wcnt

theorem State.measuring.after_bigYield (h : s.measuring hook pins) (n : Nat) :
    (bigYield hook n s).measuring hook pins := by
  refine h.of_setting ((bigYield_ignores hook n).setting s) ?_
  cases hook with
  | true => exact h.free.wcnt
  | false => rfl

theorem State.measuring.waits (h : s.measuring hook pins) (hA : AnswersYields hook d pins A) (n : Nat) :
    waitsForYield s.pins (A n) := h.pins_eq ▸ hA.waits n

theorem AnswersYields.reaches_ready (hA : AnswersYields hook d pins A) (hu : u.measuring hook pins) (n : Nat)
    (hready : u.answer = .low) :
    Reaches (((u.atPoll n).goto (.meas .m3a) rest).taken (A n))
      (((samplePoll n u).goto (afterPolls true) rest).taken (A n)) :=
  Reaches.taken (s := (u.atPoll n).goto (.meas .m3a) rest) (hu.free.reaches_ready hready) hu.free.alone
    (hu.waits hA n) (hu.after_samplePoll n).busyRunning

/-- A poll that reads 1, with its yield. -/
theorem AnswersYields.reaches_notReady (hA : AnswersYields hook d pins A) (hu : u.measuring hook pins) {n : Nat}
    (hn1 : 1 ≤ n) (hn : n ≤ 250) (hready : u.answer ≠ .low)
    (hloop : loopM3 rest (bigYield hook (d n) (samplePoll n u)) = .next v) :
    Reaches (((u.atPoll n).goto (.meas .m3a) rest).taken (A n)) (v.taken (A (n + 1))) := by
  have hsampled := hu.after_samplePoll n
  have hpoll := Reaches.taken (s := (u.atPoll n).goto (.meas .m3a) rest)
    (hu.free.reaches_notReady (rest := rest) hready) hu.free.alone (hu.waits hA n) hsampled.busyRunning
  exact hpoll.trans (hA.yields n hn1 hn _ _ _ hsampled hloop)

theorem bigPolls_ready {m : Nat} (h : u.answer = .low) :
    bigPolls hook d (m + 1) u = (true, samplePoll (250 - m) u) := if_pos h

theorem bigPolls_notReady {m : Nat} (h : u.answer ≠ .low) :
    bigPolls hook d (m + 1) u =
      bigPolls hook d m (bigYield hook (d (250 - m)) (samplePoll (250 - m) u)) := if_neg h

theorem bigYield_samplePoll_n (n k : Nat) (s : State) : (bigYield hook k (samplePoll n s)).work.n = n := by
  cases hook <;> rfl

/-- The loop M3 from poll `250 - m` on, with `m` polls after it. -/
theorem AnswersYields.reaches_bigPolls (hA : AnswersYields hook d pins A) {m : Nat} (hm : m < 250)
    (hu : u.measuring hook pins) :
    ∃ n, 1 ≤ n ∧ n ≤ 251 ∧
      Reaches (((u.atPoll (250 - m)).goto (.meas .m3a) rest).taken (A (250 - m)))
        (((bigPolls hook d (m + 1) u).2.goto (afterPolls (bigPolls hook d (m + 1) u).1) rest).taken (A n)) := by
  induction m generalizing u with
  | zero =>
    by_cases hready : u.answer = .low
    · rw [bigPolls_ready hready]
      exact ⟨250, by omega, by omega, hA.reaches_ready hu 250 hready⟩
    · rw [bigPolls_notReady hready]
      exact ⟨251, by omega, le_rfl, hA.reaches_notReady hu (by omega) le_rfl hready
        (loopM3_exhausted (bigYield_samplePoll_n 250 _ _).ge)⟩
  | succ m ih =>
    by_cases hready : u.answer = .low
    · rw [bigPolls_ready hready]
      exact ⟨250 - (m + 1), by omega, by omega, hA.reaches_ready hu _ hready⟩
    · rw [bigPolls_notReady hready]
      let n := 250 - (m + 1)
      let y := bigYield hook (d n) (samplePoll n u)
      have hyn : y.work.n = n := bigYield_samplePoll_n n _ u
      have hsucc : n + 1 = 250 - m := by omega
      have hnext : loopM3 rest y = .next ((y.atPoll (250 - m)).goto (.meas .m3a) rest) := by
        rw [loopM3_next (by omega), hyn, hsucc]
        rfl
      have hyielded := hA.reaches_notReady hu (by omega) (by omega) hready hnext
      rw [hsucc] at hyielded
      obtain ⟨n', hn1, hn, hrest⟩ := ih (by omega) ((hu.after_samplePoll n).after_bigYield (d n))
      exact ⟨n', hn1, hn, hyielded.trans hrest⟩

end Sys2Proof.Machine
end

section
/-! SUPPORT. Three hosts that answer the yields of MEAS: none is needed without a hook, `yield_ack` held at 1, and the host's
script (R40, R168). -/

namespace Sys2Proof.Machine

variable {s t u v : State} {rest : List Frame} {hook : Bool} {pins : Pins} {d : Nat → Nat}

/-! ### Without a hook (R168) -/

/-- The default wait of a poll runs to its big-step effect. -/
theorem State.measuring.reaches_wait (hu : u.measuring false pins)
    (hloop : loopM3 rest (bigYield false 0 u) = .next v) : Reaches (u.goto (.meas .m3c) rest) v := by
  have hstmt : statement (.meas .m3c) rest (u.goto (.meas .m3c) rest) =
      startWait Config.pollWaitTicks (u.goto (.meas .m3c) rest) := by
    change startYield (hookOperand u.work.arg) _ = _
    rw [hu.hook_eq]
    rfl
  have hleave : leaveDelay (bigWait Config.pollWaitTicks (u.goto (.meas .m3c) rest)) =
      loopM3 rest (bigWait Config.pollWaitTicks u) :=
    (leaveDelay_at_m3c rfl).trans (loopM3_goto (bigWait Config.pollWaitTicks u) (.meas .m3c) rest rest)
  exact ⟨_, (hu.free.run_wait hstmt).trans (hleave.trans hloop)⟩

theorem answersYields_without_hook {moves : List Move} (hmoves : waitsForYield pins moves) :
    AnswersYields false d pins fun _ => moves where
  waits _ := hmoves
  yields n _ _ u v rest hu hloop := by
    have hv : v.setting = u.setting :=
      (loopM3_setting hloop).trans ((bigYield_ignores false (d n)).setting u)
    have hstat : v.stat = u.stat := congrArg Setting.stat hv
    have hrunning : v.busyRunning := by
      rw [State.busyRunning, hstat]
      exact hu.busyRunning
    exact Reaches.taken (s := u.goto (.meas .m3c) rest) (hu.reaches_wait hloop) hu.free.alone
      (hu.pins_eq ▸ hmoves) hrunning

/-! ### A hooked yield (R168) -/

/-- The state in which a hooked yield has just been raised. -/
def State.raised (s : State) : State := { s.record .yield with stat := { s.stat with yieldReq := true } }

/-- The state `k` ticks later. -/
def State.held (k : Nat) (s : State) : State := { s with ticks := s.ticks + k }

theorem State.measuring.blockMove_raises (hu : u.measuring true pins) (rest : List Frame) :
    blockMove (u.goto (.meas .m3c) rest) = .next (u.goto (.meas .m3c) rest).raised := by
  obtain ⟨⟨hrst, hyield, hwcnt, -⟩, -, -, hhook⟩ := hu
  exact (blockMove_of_statement (s := u.goto (.meas .m3c) rest) hrst hyield hwcnt rfl).trans
    (startYield_hooked (s := u.goto (.meas .m3c) rest) hhook _ _ rfl)

/-- The end of a raised yield after `k` ticks goes on from its big-step effect. -/
theorem State.measuring.endYield_held (hu : u.measuring true pins) (k : Nat) :
    endYield ((u.goto (.meas .m3c) rest).raised.held k) = loopM3 rest (bigYield true k u) := by
  have hstat : ({ u.stat with yieldReq := false } : Stat) = u.stat := by
    rw [← hu.free.yieldReq]
  have hcleared : ({ (u.goto (.meas .m3c) rest).raised.held k with
      stat := { u.stat with yieldReq := false } } : State) = (bigYield true k u).goto (.meas .m3c) rest := by
    rw [hstat]
    rfl
  rw [endYield_at_m3c rfl]
  exact (congrArg (loopM3 rest) hcleared).trans (loopM3_goto _ _ rest rest)

theorem blockMove_of_acked (hrst : s.pins.rst = false) (hack : s.pins.yieldAck = true)
    (hyield : s.stat.yieldReq = true) : blockMove s = endYield s := by
  simp [blockMove, hrst, hack, hyield]

/-- With `yield_ack` held at 1 every yield ends at once. -/
theorem answersYields_at_once (hack : hook = true → pins.yieldAck = true) :
    AnswersYields hook (fun _ => 0) pins fun _ => [] := by
  cases hook with
  | false => exact answersYields_without_hook (.inl rfl)
  | true =>
    refine ⟨fun _ => .inl rfl, fun n _ _ u v rest hu hloop => ?_⟩
    let w := (u.goto (.meas .m3c) rest).raised
    have hraise := hu.blockMove_raises rest
    have hwalone : w.alone := hu.free.alone
    have hend : blockMove w = .next v :=
      (blockMove_of_acked (s := w) hu.free.rst (hu.pins_eq ▸ hack rfl) rfl).trans
        ((hu.endYield_held 0).trans hloop)
    have hualone : (u.goto (.meas .m3c) rest).alone := hu.free.alone
    have hreach : Reaches (u.goto (.meas .m3c) rest) v :=
      ⟨2, (run_succ ((step_of_alone hualone).trans hraise)).trans
        ((run_one w).trans ((step_of_alone hwalone).trans hend))⟩
    rw [hualone.taken, (hreach.alone hualone).taken]
    exact hreach

/-! ### The host's script (log 21) -/

/-- The moves of the script for one yield of `k` ticks. -/
def yieldMoves (k : Nat) : List Move := .waitYield :: (List.replicate k .run ++ ScriptLine.hookret.expand)

/-- The moves of the script for the yields from that of poll `n` on. -/
def hookMoves (d : Nat → Nat) (n : Nat) : List Move :=
  (List.range (251 - n)).flatMap fun j => yieldMoves (d (n + j))

theorem expandScript_hookScript (d : Nat → Nat) : expandScript (hookScript d 250) = hookMoves d 1 := by
  simp only [expandScript, hookScript, hookMoves, List.flatMap_assoc, Nat.add_comm 1]
  rfl

theorem hookMoves_of_le {n : Nat} (hn : n ≤ 250) :
    hookMoves d n = yieldMoves (d n) ++ hookMoves d (n + 1) := by
  simp only [hookMoves, show 251 - n = 250 - n + 1 by omega, Nat.reduceSubDiff, List.range_succ_eq_map,
    List.flatMap_cons, List.flatMap_map, Nat.add_zero, Nat.succ_eq_add_one, Nat.add_assoc, Nat.add_comm 1]

theorem hookMoves_of_gt {n : Nat} (hn : 250 < n) : hookMoves d n = [] := by
  simp [hookMoves, show 251 - n = 0 by omega]

theorem hookMoves_suffix (d : Nat → Nat) {n : Nat} (hn : 1 ≤ n) : hookMoves d n <:+ hookMoves d 1 := by
  induction n, hn using Nat.le_induction with
  | base => exact List.suffix_refl _
  | succ n hn ih =>
    by_cases hle : n ≤ 250
    · rw [hookMoves_of_le hle] at ih
      exact (List.suffix_append _ _).trans ih
    · rw [hookMoves_of_gt (by omega)]
      exact List.nil_suffix

theorem waitsForYield_hookMoves (hack : pins.yieldAck = false) (n : Nat) : waitsForYield pins (hookMoves d n) := by
  by_cases hn : n ≤ 250
  · exact .inr ⟨hack, _, hookMoves_of_le hn⟩
  · exact .inl (hookMoves_of_gt (by omega))

theorem step_of_run {moves : List Move} (hag : s.world.agenda = .run :: moves) :
    step s = blockMove (s.taken moves) := by
  simp only [step, nextMove, hag]

/-- Beside the moves `run` of the script, a pending yield is held. -/
theorem run_held (hrst : s.pins.rst = false) (hack : s.pins.yieldAck = false) (hyield : s.stat.yieldReq = true)
    (k : Nat) (moves : List Move) :
    Reaches (s.taken (List.replicate k .run ++ moves)) ((s.held k).taken moves) := by
  induction k generalizing s with
  | zero => exact .refl _
  | succ k ih =>
    have hheld := blockMove_taken (List.replicate k .run ++ moves) (blockMove_of_held hrst hack hyield)
    have hstep : step (s.taken (List.replicate (k + 1) .run ++ moves)) =
        .next ((s.held 1).taken (List.replicate k .run ++ moves)) := (step_of_run rfl).trans hheld
    have hsum : (s.held 1).held k = s.held (k + 1) := by
      simp only [State.held, Nat.add_assoc, Nat.add_comm 1]
    have hrest := ih (s := s.held 1) hrst hack hyield
    rw [hsum] at hrest
    exact Reaches.trans ⟨1, (run_one _).trans hstep⟩ hrest

theorem endYield_taken (moves : List Move) (h : endYield s = .next t) :
    endYield (s.taken moves) = .next (t.taken moves) := by
  have hover := endYield_over ⟨id, id, fun _ => moves, id⟩ s
  rw [h] at hover
  exact hover

/-- A pending yield beside its moves of the script ends after `k` ticks. -/
theorem reaches_endYield (hrst : s.pins.rst = false) (hack : s.pins.yieldAck = false)
    (hyield : s.stat.yieldReq = true) {k : Nat} (moves : List Move) (h : endYield (s.held k) = .next t) :
    Reaches (s.taken (yieldMoves k ++ moves)) (t.taken moves) := by
  have hwait : step (s.taken (yieldMoves k ++ moves)) =
      .next (s.taken (List.replicate k .run ++ (ScriptLine.hookret.expand ++ moves))) := by
    rw [← List.append_assoc]
    exact (step_of_waitYield rfl).trans (congrArg _ (waitYield_of_yielding hyield))
  have hreturn : Host.Core.run core 2 ((s.held k).taken (ScriptLine.hookret.expand ++ moves)) =
      .next (t.taken moves) :=
    (run_hookret (s := (s.held k).taken (ScriptLine.hookret.expand ++ moves)) rfl (.inl hyield)).trans
      ((if_pos hyield).trans (endYield_taken (s := s.held k) moves h))
  exact Reaches.trans ⟨1, (run_one _).trans hwait⟩
    ((run_held hrst hack hyield k _).trans ⟨2, hreturn⟩)

/-- The script answers the yields. -/
theorem answersYields_by_script (hack : pins.yieldAck = false) :
    AnswersYields true d pins (hookMoves d) where
  waits := waitsForYield_hookMoves hack
  yields n _ hn u v rest hu hloop := by
    have hwaits : waitsForYield u.pins (hookMoves d n) := hu.pins_eq ▸ waitsForYield_hookMoves hack n
    have hraise := State.busyRunning.reaches_taken (s := u.goto (.meas .m3c) rest) hu.busyRunning hwaits
      (hu.blockMove_raises rest)
    have hend := reaches_endYield (s := (u.goto (.meas .m3c) rest).raised) hu.free.rst (hu.pins_eq ▸ hack) rfl
      (hookMoves d (n + 1)) ((hu.endYield_held (d n)).trans hloop)
    rw [← hookMoves_of_le hn] at hend
    exact hraise.trans hend

end Sys2Proof.Machine
end

section
/-! PROOFS. Every command runs step by step from its acceptance to its big-step result (R35), for every duration of the
yields. -/

namespace Sys2Proof.Machine

variable {s t u : State} {i : Instr} {hook : Bool} {pins : Pins} {d : Nat → Nat} {A : Nat → List Move}
  {moves : List Move}

/-! ### MEAS, from its wrapper's call to its completion -/

theorem State.measuring.after_bigPolls (h : s.measuring hook pins) (m : Nat) :
    (bigPolls hook d m s).2.measuring hook pins := by
  induction m generalizing s with
  | zero => exact h
  | succ m ih =>
    by_cases hready : s.answer = .low
    · rw [bigPolls_ready hready]
      exact h.after_samplePoll _
    · rw [bigPolls_notReady hready]
      exact ih ((h.after_samplePoll _).after_bigYield _)

theorem State.measuring.after_bigMeasure (h : s.measuring hook pins) (sel : Sel) :
    (bigMeasure sel s).measuring hook pins :=
  h.of_setting ((bigMeasure_ignores sel).setting s) (h.free.after_bigMeasure sel).wcnt

theorem bigOutcome_setting (ready : Bool) (s : State) : (bigOutcome (ready, s)).setting = s.setting :=
  congrArg (fun u => u.setting) (bigOutcome_under s.setting (ready, s))

theorem State.measuring.after_bigOutcome (h : s.measuring hook pins) (ready : Bool) :
    (bigOutcome (ready, s)).measuring hook pins :=
  h.of_setting (bigOutcome_setting ready s) (h.free.after_bigOutcome ready).wcnt

theorem State.measuring.after_bigMeas (h : s.measuring hook pins) (sel : Sel) :
    (bigMeas sel hook d s).measuring hook pins :=
  ((h.after_bigMeasure sel).after_bigPolls 250).after_bigOutcome _

/-- Beside a host that answers the yields, MEAS runs to its big-step effect. -/
theorem AnswersYields.reaches_bigMeas (hA : AnswersYields hook d pins A) (ht : t.measuring hook pins) {sel : Sel}
    (hsel : selOperand t.work.arg = sel) :
    ∃ n, 1 ≤ n ∧ n ≤ 251 ∧ Reaches ((t.goto (.wrapper .x3a) []).taken (A 1))
      (((bigMeas sel hook d t).goto (.wrapper .x3b) []).taken (A n)) := by
  let u := bigMeasure sel t
  have hu : u.measuring hook pins := ht.after_bigMeasure sel
  have hfirst : Reaches ((t.goto (.wrapper .x3a) []).taken (A 1))
      (((u.atPoll 1).goto (.meas .m3a) [.wrapper .x3a]).taken (A 1)) := by
    have hcall : Reaches (t.goto (.wrapper .x3a) []) (t.goto (.meas .m1) [.wrapper .x3a]) := ht.free.reaches rfl
    exact Reaches.taken (hcall.trans (ht.free.reaches_bigMeasure hsel)) ht.free.alone (ht.waits hA 1)
      hu.busyRunning
  obtain ⟨n, hn1, hn, hpolls⟩ := hA.reaches_bigPolls (m := 249) (rest := [.wrapper .x3a]) (by omega) hu
  let p := bigPolls hook d 250 u
  have hp : p.2.measuring hook pins := hu.after_bigPolls 250
  have hlast : Reaches ((p.2.goto (afterPolls p.1) [.wrapper .x3a]).taken (A n))
      (((bigOutcome p).goto (.wrapper .x3b) []).taken (A n)) :=
    Reaches.taken (hp.free.reaches_bigOutcome rfl) hp.free.alone (hp.waits hA n)
      (hp.after_bigOutcome p.1).busyRunning
  exact ⟨n, hn1, hn, hfirst.trans (hpolls.trans hlast)⟩

/-! ### The other commands, from their wrapper's call to their completion -/

/-- The commands that do not yield. -/
def yieldless (i : Instr) : Prop := ∀ sel hook, i ≠ .meas sel hook

theorem State.sequencing.reaches_bigProcedure (hs : s.sequencing) (hi : yieldless i)
    (harg : s.work.arg = operandByteOf i) :
    Reaches (s.goto (.wrapper (wrapperOf i)) []) ((bigProcedure d i s).goto (.wrapper (completionOf i)) []) ∧
      (bigProcedure d i s).sequencing := by
  cases i with
  | start => exact ⟨hs.reaches_start rfl rfl, hs.after_bigStart⟩
  | connreset =>
    have hcall : Reaches (s.goto (.wrapper .x2a) []) (s.goto (.connreset .q1dir) [.wrapper .x2a]) :=
      hs.reaches rfl
    exact ⟨hcall.trans (hs.reaches_bigConnreset rfl), hs.after_bigConnreset⟩
  | meas sel hook => exact absurd rfl (hi sel hook)
  | rdstat =>
    have hcall : Reaches (s.goto (.wrapper .x4a) []) (s.goto (.rdstat .t1) [.wrapper .x4a]) := hs.reaches rfl
    exact ⟨hcall.trans (hs.reaches_bigRdstat rfl), hs.after_bigRdstat⟩
  | wrstat value =>
    have hcall : Reaches (s.goto (.wrapper .x5a) []) (s.goto (.wrstat .v1) [.wrapper .x5a]) := hs.reaches rfl
    exact ⟨hcall.trans (hs.reaches_bigWrstat harg rfl), hs.after_bigWrstat value⟩
  | wrbyte value =>
    have hcall : statement (.wrapper .x6a) [] (s.goto (.wrapper .x6a) []) =
        .next ((s.goto (.wrapper .x6a) []).callWrbyte value) := by
      rw [show value = s.work.arg from harg.symm]
      rfl
    exact ⟨hs.reaches_wrbyte hcall rfl, hs.after_bigWrbyte value⟩
  | rdbyte ack =>
    have hcall : statement (.wrapper .x7a) [] (s.goto (.wrapper .x7a) []) =
        .next ((s.goto (.wrapper .x7a) []).callRdbyte ack) := by
      rw [← ackOperand_rdbyte ack, ← harg]
      rfl
    exact ⟨hs.reaches_rdbyte hcall rfl, hs.after_bigRdbyte ack⟩

/-! ### Acceptance and completion (R160, R161) -/

theorem commitRaw_goto (sel : Sel) (raw : Raw) (s : State) (f : Frame) (c : List Frame) :
    (s.goto f c).commitRaw sel raw = (s.commitRaw sel raw).goto f c := by
  cases sel <;> rfl

/-- A completion leaves the stack empty, whatever it was. -/
theorem stmtWrapper_completionOf_goto (i : Instr) (s : State) (f : Frame) (c : List Frame) :
    stmtWrapper (completionOf i) (s.goto f c) = stmtWrapper (completionOf i) s := by
  cases i with
  | meas sel hook =>
    change completeMeas (s.goto f c) = completeMeas s
    cases hres : s.work.res with
    | success raw =>
      rw [completeMeas_success hres, completeMeas_success (s := s.goto f c) hres, commitRaw_goto]
      rfl
    | failure cause => rw [completeMeas_failure hres, completeMeas_failure (s := s.goto f c) hres]; rfl
  | start | connreset | rdstat | wrstat | wrbyte | rdbyte => rfl

theorem State.sequencing.reaches_completion (hs : s.sequencing) (hbusy : s.stat.busy = true) (i : Instr)
    (hmoves : waitsForYield s.pins moves) :
    Reaches ((s.goto (.wrapper (completionOf i)) []).taken moves) ((stmtWrapper (completionOf i) s).taken moves) := by
  obtain ⟨hrst, hyield, hwcnt, -⟩ := hs
  have hrunning : (s.goto (.wrapper (completionOf i)) []).busyRunning := ⟨hbusy, hyield⟩
  refine hrunning.reaches_taken hmoves ?_
  rw [blockMove_of_statement (s := s.goto _ []) hrst hyield hwcnt rfl,
    ← stmtWrapper_completionOf_goto i s (.wrapper (completionOf i)) []]
  rfl

/-- A command accepted on an idle block, when the host does nothing. -/
def State.accepted (s : State) (i : Instr) : State := (s.taken []).accept i (wrapperOf i)

theorem State.accept_eq_accepted (s : State) (i : Instr) :
    s.accept i (wrapperOf i) = (s.accepted i).taken s.world.agenda := rfl

theorem State.accepted_arg (s : State) (i : Instr) : (s.accepted i).work.arg = operandByteOf i :=
  congrArg CommandFields.arg (fieldsOf_wordOf _)

theorem State.ready.accepted_sequencing (h : s.ready) (i : Instr) : (s.accepted i).sequencing :=
  State.ready.accept_sequencing (s := s.taken []) h rfl i _

theorem hookOperand_meas (sel : Sel) (hook : Bool) : hookOperand (operandByteOf (.meas sel hook)) = hook := by
  cases sel <;> cases hook <;> rfl

theorem selOperand_meas (sel : Sel) (hook : Bool) : selOperand (operandByteOf (.meas sel hook)) = sel := by
  cases sel <;> cases hook <;> rfl

theorem State.ready.accepted_measuring (h : s.ready) (sel : Sel) (hook : Bool) :
    (s.accepted (.meas sel hook)).measuring hook s.pins :=
  ⟨h.accepted_sequencing _, rfl, rfl, (congrArg hookOperand (s.accepted_arg _)).trans (hookOperand_meas sel hook)⟩

/-- A command that does not yield runs to its big-step result beside a host that waits. -/
theorem State.ready.reaches_bigCommand (h : s.ready) (hi : yieldless i) (hmoves : waitsForYield s.pins moves) :
    Reaches ((s.accepted i).taken moves) ((bigCommand d i (s.accepted i)).taken moves) := by
  have hs := h.accepted_sequencing i
  obtain ⟨hrun, hfree⟩ := hs.reaches_bigProcedure (d := d) hi (s.accepted_arg i)
  have hpins : (bigProcedure d i (s.accepted i)).pins = s.pins := (bigProcedure_ignores d i).pins _
  have hbusy : (bigProcedure d i (s.accepted i)).stat.busy = true := by
    rw [(bigProcedure_ignores d i).stat]
    rfl
  rw [bigCommand_eq]
  exact (hrun.taken hs.alone hmoves ⟨hbusy, hfree.yieldReq⟩).trans
    (hfree.reaches_completion hbusy i (hpins ▸ hmoves))

/-- MEAS runs to its big-step result beside a host that answers its yields. -/
theorem State.ready.reaches_bigCommand_meas (h : s.ready) (sel : Sel) (hA : AnswersYields hook d s.pins A) :
    ∃ n, 1 ≤ n ∧ n ≤ 251 ∧ Reaches ((s.accepted (.meas sel hook)).taken (A 1))
      ((bigCommand d (.meas sel hook) (s.accepted (.meas sel hook))).taken (A n)) := by
  have ht := h.accepted_measuring sel hook
  have hsel := (congrArg selOperand (s.accepted_arg (.meas sel hook))).trans (selOperand_meas sel hook)
  obtain ⟨n, hn1, hn, hrun⟩ := hA.reaches_bigMeas ht hsel
  have hdone := ht.after_bigMeas (d := d) sel
  exact ⟨n, hn1, hn, hrun.trans (hdone.free.reaches_completion hdone.busy (.meas sel hook) (hdone.waits hA n))⟩

/-- An idle block accepts the command, and what the accepted command reaches beside the host's moves is the
obligations' run. -/
theorem State.ready.exec_then_run_beside (h : s.ready)
    (hrun : Reaches ((s.accepted i).taken s.world.agenda) ((bigCommand d i (s.accepted i)).taken moves)) :
    ∃ t k, exec i s = .next t ∧ t.stat.busy = true ∧
      Host.Core.run core k t = .next ((bigCommand d i t).taken moves) := by
  obtain ⟨k, hk⟩ := hrun
  have hcommand : (bigCommand d i (s.accept i (wrapperOf i))).taken moves =
      (bigCommand d i (s.accepted i)).taken moves := by
    rw [s.accept_eq_accepted, bigCommand_taken]
    rfl
  refine ⟨s.accept i (wrapperOf i), k, ?_, rfl, hk.trans (congrArg _ hcommand.symm)⟩
  rw [exec_eq_offer, h.offer]

/-! ### The obligations -/

theorem yieldless_or_meas (i : Instr) : yieldless i ∨ ∃ sel hook, i = .meas sel hook := by
  cases i with
  | meas sel hook => exact .inr ⟨sel, hook, rfl⟩
  | start | connreset | rdstat | wrstat | wrbyte | rdbyte => exact .inl fun _ _ h => by cases h

/-- The run of a command alone, every hook returned at once. -/
theorem State.ready.reaches_bigCommand_alone (h : s.ready)
    (hack : (∃ sel, i = .meas sel true) → s.pins.yieldAck = true) :
    Reaches ((s.accepted i).taken []) ((bigCommand (fun _ => 0) i (s.accepted i)).taken []) := by
  rcases yieldless_or_meas i with hi | ⟨sel, hook, rfl⟩
  · exact h.reaches_bigCommand hi (.inl rfl)
  · have hA := answersYields_at_once (hook := hook) (pins := s.pins) fun hh => hack ⟨sel, by rw [hh]⟩
    obtain ⟨-, -, -, hrun⟩ := h.reaches_bigCommand_meas sel hA
    exact hrun

/-- Settles O24: with every hook returned at once, the run of the accepted command alone. -/
theorem smallStepRunIsTheBigStepResult : Obligations.SmallStepRunIsTheBigStepResult := by
  intro i s hready halone hack
  have hrun := hready.reaches_bigCommand_alone (i := i) hack
  rw [← show s.world.agenda = [] from halone] at hrun
  obtain ⟨t, k, hexec, hbusy, hk⟩ := hready.exec_then_run_beside hrun
  have ht : t = s.accept i (wrapperOf i) := by
    rw [exec_eq_offer, hready.offer] at hexec
    exact (Host.Outcome.next.inj hexec).symm
  have htalone : t.taken s.world.agenda = t := by rw [ht]; rfl
  rw [← bigCommand_taken, htalone] at hk
  exact ⟨t, k, hexec, hbusy, hk⟩

/-- Settles O54: the script answers the yields of a hooked MEAS; no other command looks at it. -/
theorem hookedRunIsTheBigStepResultForEveryDuration :
    Obligations.HookedRunIsTheBigStepResultForEveryDuration := by
  intro i s d hready hack hag
  rw [expandScript_hookScript] at hag
  have hwaits : waitsForYield s.pins s.world.agenda := hag ▸ waitsForYield_hookMoves hack 1
  have hrun : ∃ moves, moves <:+ s.world.agenda ∧
      Reaches ((s.accepted i).taken s.world.agenda) ((bigCommand d i (s.accepted i)).taken moves) := by
    rcases yieldless_or_meas i with hi | ⟨sel, hook, rfl⟩
    · exact ⟨_, List.suffix_refl _, hready.reaches_bigCommand hi hwaits⟩
    cases hook with
    | false =>
      obtain ⟨n, -, -, hreach⟩ := hready.reaches_bigCommand_meas sel (answersYields_without_hook hwaits)
      exact ⟨_, List.suffix_refl _, hreach⟩
    | true =>
      obtain ⟨n, hn1, -, hreach⟩ := hready.reaches_bigCommand_meas sel (answersYields_by_script (d := d) hack)
      rw [hag]
      exact ⟨_, hookMoves_suffix d hn1, hreach⟩
  obtain ⟨moves, hsuffix, hreach⟩ := hrun
  obtain ⟨t, k, hexec, hbusy, hk⟩ := hready.exec_then_run_beside hreach
  exact ⟨t, k, moves, hexec, hbusy, hsuffix, hk⟩

end Sys2Proof.Machine
end

section
/-! PROOFS. What MEAS leaves behind, in closed form: success, checksum failure and poll timeout (R166 to R175). -/

namespace Sys2Proof.Machine

variable {s t : State} {sel : Sel} {hook : Bool} {ack : Level} {hi lo ck : Byte} {as : List Level}

/-! ### The polls (R166 M3, R171) -/

theorem pollEvents_succ (hook : Bool) (t y m : Nat) :
    pollEvents hook t y (m + 1) = [⟨t, .sample .high⟩, yieldEvent hook t] ++ pollEvents hook (t + y) y m := by
  simp [pollEvents, List.range_succ_eq_map, List.flatMap_map, Nat.succ_mul, Nat.add_assoc, Nat.add_comm y]

/-- The state after `j` polls that read 1, with their yields; `w` are the working registers. -/
def State.polled (hook : Bool) (j : Nat) (as : List Level) (w : Work) (s : State) : State :=
  { s with
    work := w
    ticks := s.ticks + j * yieldTicks hook
    trace := (pollEvents hook s.ticks (yieldTicks hook) j).reverse ++ s.trace
    world := s.world.used j as }

theorem samplePoll_of_cons {b : Level} (n : Nat) (h : s.world.answers = b :: as) :
    samplePoll n s =
      { s.record (.sample b) with work := { s.work with n := n, s := b }, world := s.world.used 1 as } := by
  rw [samplePoll, State.sampled_of_cons h, State.answer_of_cons h]

/-- The state after one poll that reads 1, with its yield. -/
def State.polledOnce (hook : Bool) (as : List Level) (w : Work) (s : State) : State :=
  { s with
    work := w
    ticks := s.ticks + yieldTicks hook
    trace := yieldEvent hook s.ticks :: ⟨s.ticks, .sample .high⟩ :: s.trace
    world := s.world.used 1 as }

theorem bigYield_samplePoll_eq (n : Nat) (h : s.world.answers = .high :: as) :
    ∃ w, bigYield hook 0 (samplePoll n s) = s.polledOnce hook as w := by
  rw [samplePoll_of_cons n h]
  cases hook with
  | true => exact ⟨_, rfl⟩
  | false => exact ⟨_, rfl⟩

theorem State.polledOnce_polled (j : Nat) (as as' : List Level) (w w' : Work) (s : State) :
    (s.polledOnce hook as w).polled hook j as' w' = s.polled hook (j + 1) as' w' := by
  have hticks : s.ticks + yieldTicks hook + j * yieldTicks hook = s.ticks + (j + 1) * yieldTicks hook := by
    rw [Nat.succ_mul, Nat.add_assoc, Nat.add_comm (yieldTicks hook)]
  simp only [State.polled, State.polledOnce, hticks, World.used_used, Nat.add_comm 1,
    pollEvents_succ hook s.ticks, List.reverse_append, List.append_assoc]
  rfl

/-- The first `j` polls read 1. -/
theorem bigPolls_unready (j m : Nat) (h : s.world.answers = List.replicate j .high ++ as) :
    ∃ w, bigPolls hook (fun _ => 0) (m + j) s = bigPolls hook (fun _ => 0) m (s.polled hook j as w) := by
  induction j generalizing s with
  | zero =>
    refine ⟨s.work, congrArg _ ?same⟩
    case same =>
      rw [State.polled, Nat.zero_mul, show s.world.used 0 as = s.world by rw [← show s.world.answers = as from h]; rfl]
      rfl
  | succ j ih =>
    have hcons : s.world.answers = .high :: (List.replicate j .high ++ as) := h
    have hhigh : s.answer ≠ .low := by rw [State.answer_of_cons hcons]; decide
    obtain ⟨w1, hw1⟩ := bigYield_samplePoll_eq (hook := hook) (250 - (m + j)) hcons
    obtain ⟨w, hw⟩ := ih (s := s.polledOnce hook (List.replicate j .high ++ as) w1) rfl
    rw [← Nat.add_assoc, bigPolls_notReady hhigh, hw1, hw, State.polledOnce_polled]
    exact ⟨w, rfl⟩

/-! ### The command byte and the retrieval (R166 M1, M2, M4 to M6) -/

theorem bigMeasure_eq (h : s.world.answers = ack :: as) :
    ∃ w, bigMeasure sel s =
      { s with
        line := ⟨.low, s.line.sckOe, (code sel).getLsbD 0, .released⟩
        work := w
        ticks := s.ticks + 161
        trace := (startEvents s.ticks ++ writeFrame (s.ticks + 35) (code sel) ack).reverse ++ s.trace
        world := s.world.used 1 as } := by
  have hstart : (bigStart s).world.answers = ack :: as := h
  refine ⟨(bigMeasure sel s).work, ?_⟩
  rw [bigMeasure, bigWrbyte_eq hstart, bigStart_eq]
  simp only [Nat.add_assoc, List.reverse_append, List.append_assoc]

theorem bigMeasure_answers (sel : Sel) (h : s.world.answers = ack :: as) :
    (bigMeasure sel s).world.answers = as := by
  obtain ⟨w, hmeasure⟩ := bigMeasure_eq (sel := sel) h
  rw [hmeasure]
  rfl

theorem bigRetrieve_eq (h : s.world.answers = levelsOf hi ++ (levelsOf lo ++ (levelsOf ck ++ as))) :
    ∃ w, bigRetrieve s =
        { s with
          line := ⟨.low, s.line.sckOe, .high, .released⟩
          work := w
          ticks := s.ticks + 378
          trace := (retrievalEvents s.ticks hi lo ck).reverse ++ s.trace
          world := s.world.used 24 as } ∧ w.hi = hi ∧ w.lo = lo ∧ w.ck = ck := by
  let w : Work :=
    { s.work with a := .low, r := ck, i := 0, l := .low, wcnt := 0, hi := hi, lo := lo, ck := ck }
  refine ⟨w, ?closed, rfl, rfl, rfl⟩
  case closed =>
    have hlo : (bigRdbyte .high s).keepHi.world.answers = levelsOf lo ++ (levelsOf ck ++ as) := by
      rw [bigRdbyte_eq h]
      rfl
    have hck : (bigRdbyte .high (bigRdbyte .high s).keepHi).keepLo.world.answers = levelsOf ck ++ as := by
      rw [bigRdbyte_eq hlo]
      rfl
    rw [bigRetrieve_eq_frames, bigRdbyte_eq hck, bigRdbyte_eq hlo, bigRdbyte_eq h]
    simp [State.keepHi, State.keepLo, State.keepCk, World.used_used, Nat.add_assoc, retrievalEvents, w]

/-! ### The exits (R166 M7, M8) -/

theorem bigMeasFail_closed (c : Cause) (s : State) :
    ∃ w, bigMeasFail c s =
        { s with
          line := ⟨.low, .driven, .low, .released⟩
          work := w
          ticks := s.ticks + 168
          trace := (busResetEvents s.ticks).reverse ++ s.trace } ∧ w.res = .failure c := by
  rw [bigMeasFail_eq, bigConnreset_eq]
  exact ⟨_, rfl, rfl⟩

/-- The events of MEAS up to the end of its retrieval, ready at poll `j + 1` (R166, R172). -/
def measEvents (t : Nat) (sel : Sel) (hook : Bool) (ack : Level) (j : Nat) (hi lo ck : Byte) : List LineEvent :=
  startEvents t ++ writeFrame (t + 35) (code sel) ack ++ pollEvents hook (t + 161) (yieldTicks hook) j ++
    [(⟨t + 161 + j * yieldTicks hook, .sample .low⟩ : LineEvent)] ++
    retrievalEvents (t + 161 + j * yieldTicks hook) hi lo ck

/-- MEAS up to its checksum test, when the device is ready at poll `j + 1`. -/
theorem bigMeas_of_ready {j : Nat} (hj : j < 250)
    (h : s.world.answers =
      ack :: (List.replicate j .high ++ .low :: (levelsOf hi ++ levelsOf lo ++ levelsOf ck ++ as))) :
    ∃ w, bigMeas sel hook (fun _ => 0) s = bigCheck
        { s with
          line := ⟨.low, s.line.sckOe, .high, .released⟩
          work := w
          ticks := s.ticks + 539 + j * yieldTicks hook
          trace := (measEvents s.ticks sel hook ack j hi lo ck).reverse ++ s.trace
          world := s.world.used (j + 26) as } ∧ w.hi = hi ∧ w.lo = lo ∧ w.ck = ck := by
  obtain ⟨w1, hmeasure⟩ := bigMeasure_eq (sel := sel) h
  obtain ⟨w2, hpolls⟩ := bigPolls_unready (hook := hook) (s := bigMeasure sel s) j (250 - j)
    (bigMeasure_answers sel h)
  obtain ⟨m, hm⟩ : ∃ m, 250 - j = m + 1 := ⟨249 - j, by omega⟩
  let polled := (bigMeasure sel s).polled hook j (.low :: (levelsOf hi ++ levelsOf lo ++ levelsOf ck ++ as)) w2
  have hsampled := samplePoll_of_cons (s := polled) (250 - m) rfl
  obtain ⟨w, hretrieve, hhi, hlo, hck⟩ := bigRetrieve_eq (s := samplePoll (250 - m) polled) (hi := hi) (lo := lo)
    (ck := ck) (as := as) (by rw [hsampled]; simp only [World.used, List.append_assoc])
  refine ⟨w, ?closed, hhi, hlo, hck⟩
  case closed =>
    have hticks : s.ticks + 161 + j * yieldTicks hook + 378 = s.ticks + 539 + j * yieldTicks hook := by omega
    have hused : 1 + j + 1 + 24 = j + 26 := by omega
    rw [show 250 - j + j = 250 by omega] at hpolls
    rw [bigMeas_eq, show Config.pollMax = 250 from rfl, hpolls, hm, bigPolls_ready rfl, bigOutcome_ready,
      hretrieve, hsampled]
    simp only [polled, hmeasure, State.polled, State.record, World.used_used, hticks, hused, measEvents,
      List.reverse_append, List.append_assoc]
    rfl

/-- MEAS whose 250 polls all read 1. -/
theorem bigMeas_of_timeout (h : s.world.answers = ack :: (List.replicate 250 .high ++ as)) :
    ∃ w, bigMeas sel hook (fun _ => 0) s = bigMeasFail .pollTimeout
        { s with
          line := ⟨.low, s.line.sckOe, (code sel).getLsbD 0, .released⟩
          work := w
          ticks := s.ticks + 161 + 250 * yieldTicks hook
          trace := (startEvents s.ticks ++ writeFrame (s.ticks + 35) (code sel) ack ++
            pollEvents hook (s.ticks + 161) (yieldTicks hook) 250).reverse ++ s.trace
          world := s.world.used 251 as } := by
  obtain ⟨w1, hmeasure⟩ := bigMeasure_eq (sel := sel) h
  obtain ⟨w2, hpolls⟩ := bigPolls_unready (hook := hook) (s := bigMeasure sel s) 250 0
    (bigMeasure_answers sel h)
  rw [Nat.zero_add] at hpolls
  rw [bigMeas_eq, show Config.pollMax = 250 from rfl, hpolls, hmeasure]
  refine ⟨w2, (bigOutcome_timeout _).trans ?_⟩
  simp only [State.polled, World.used_used, List.reverse_append, List.append_assoc, Nat.reduceAdd]

/-! ### The obligations -/

/-- An accepted MEAS runs alone to its big-step completion, every hook returned at once. -/
theorem State.ready.runs_meas (h : s.ready) (ha : s.alone) (hack : hook = true → s.pins.yieldAck = true) (sel : Sel) :
    ∃ t k, exec (.meas sel hook) s = .next t ∧ t.stat.busy = true ∧
      Host.Core.run core k t =
        .next (completeMeas (bigMeas sel hook (fun _ => 0) (s.accept (.meas sel hook) .x3a))) := by
  obtain ⟨t, k, hexec, hbusy, hk⟩ := smallStepRunIsTheBigStepResult (.meas sel hook) s h ha
    (by rintro ⟨_, hi⟩; exact hack (Instr.meas.inj hi).2)
  have ht : s.accept (.meas sel hook) .x3a = t := by
    rw [exec_eq_offer, h.offer] at hexec
    exact Host.Outcome.next.inj hexec
  rw [ht]
  exact ⟨t, k, hexec, hbusy, hk⟩

theorem State.accept_meas_selOperand (s : State) (sel : Sel) (hook : Bool) :
    selOperand (s.accept (.meas sel hook) .x3a).work.arg = sel :=
  (congrArg selOperand (s.accepted_arg (.meas sel hook))).trans (selOperand_meas sel hook)

/-- MEAS keeps its latched operand byte. -/
theorem bigMeas_selOperand (sel : Sel) (hook : Bool) (d : Nat → Nat) (s : State) :
    selOperand (bigMeas sel hook d s).work.arg = selOperand s.work.arg :=
  congrArg selOperand ((bigMeas_ignores sel hook d).arg s)

/-- Settles O21: the retrieved bytes pass the checksum test, and the completion commits them. -/
theorem measSucceedsWhenTheDeviceBecomesReady : Obligations.MeasSucceedsWhenTheDeviceBecomesReady := by
  intro s sel hook ack j hi lo ck as hready halone hack hj hans hck
  obtain ⟨t, k, hexec, hbusy, hrun⟩ := hready.runs_meas halone hack sel
  refine ⟨t, k, _, hexec, hbusy, hrun, ?_⟩
  obtain ⟨-, -, -, -, hctl⟩ := hready
  obtain ⟨w, hmeas, hhi, hlo, hwck⟩ :=
    bigMeas_of_ready (s := s.accept (.meas sel hook) .x3a) (sel := sel) (hook := hook) hj hans
  rw [bigCheck_match (by rw [hhi, hlo, hwck]; exact hck), hhi, hlo] at hmeas
  have hsel := (bigMeas_selOperand sel hook (fun _ => 0) _).trans (s.accept_meas_selOperand sel hook)
  rw [completeMeas_success (raw := rawOf hi lo) (by rw [hmeas]), hsel, hmeas]
  cases sel <;> simp only [State.commitRaw, State.done, Stat.completed, hctl, reduceCtorEq, if_true, if_false,
    decide_true, decide_false, Bool.or_true, Bool.or_false] <;> rfl

/-- Settles O22: the retrieved bytes fail the checksum test, and a bus reset follows. -/
theorem measFailsOnAWrongChecksum : Obligations.MeasFailsOnAWrongChecksum := by
  intro s sel hook ack j hi lo ck as hready halone hack hj hans hck
  obtain ⟨t, k, hexec, hbusy, hrun⟩ := hready.runs_meas halone hack sel
  refine ⟨t, k, _, hexec, hbusy, hrun, ?_⟩
  obtain ⟨-, -, -, -, hctl⟩ := hready
  obtain ⟨w, hmeas, hhi, hlo, hwck⟩ :=
    bigMeas_of_ready (s := s.accept (.meas sel hook) .x3a) (sel := sel) (hook := hook) hj hans
  rw [bigCheck_mismatch (by rw [hhi, hlo, hwck]; exact hck)] at hmeas
  obtain ⟨w', hfail, hres⟩ := bigMeasFail_closed .checksumMismatch _
  rw [hfail] at hmeas
  rw [completeMeas_failure (c := .checksumMismatch) (by rw [hmeas]; exact hres), hmeas]
  have hticks : s.ticks + 539 + j * yieldTicks hook + 168 = s.ticks + 707 + j * yieldTicks hook := by omega
  simp only [State.done, hctl, measEvents, State.accept, hticks, List.reverse_append, List.append_assoc]
  rfl

/-- Settles O23: the polls are used up, and a bus reset follows. -/
theorem measTimesOutAfterExactly250Polls : Obligations.MeasTimesOutAfterExactly250Polls := by
  intro s sel hook ack as hready halone hack hans
  obtain ⟨t, k, hexec, hbusy, hrun⟩ := hready.runs_meas halone hack sel
  refine ⟨t, k, _, hexec, hbusy, hrun, ?_⟩
  obtain ⟨-, -, -, -, hctl⟩ := hready
  obtain ⟨w, hmeas⟩ :=
    bigMeas_of_timeout (s := s.accept (.meas sel hook) .x3a) (sel := sel) (hook := hook) hans
  obtain ⟨w', hfail, hres⟩ := bigMeasFail_closed .pollTimeout _
  rw [hfail] at hmeas
  rw [completeMeas_failure (c := .pollTimeout) (by rw [hmeas]; exact hres), hmeas]
  have hticks : s.ticks + 161 + 250 * yieldTicks hook + 168 = s.ticks + 329 + 250 * yieldTicks hook := by omega
  simp only [State.done, hctl, State.accept, hticks, List.reverse_append, List.append_assoc]
  rfl

end Sys2Proof.Machine
end
